-- ==== Sys2Proof/Word.lean ====
section
/-!
DEFINITION. The widths of the spec: `bits8`, `bits16` (R10) and the command word `bits10` (R45).
-/

namespace Sys2Proof

/-- `bits8`: one message byte, one check byte (R10, R29). -/
abbrev Byte := BitVec 8

/-- `bits16`: the accumulator and the checksum (R8 `CRC_WIDTH`, R13). -/
abbrev Word := BitVec 16

/-- `cmd : bits10`, the command word (R45). -/
abbrev CmdWord := BitVec 10

end Sys2Proof
end

