-- ==== Sys2Proof/Machine/Operands.lean ====
section
/-!
DEFINITION. Slices and extensions (R10) and the one operand form of the block, BYTE's (R48).
-/

namespace Sys2Proof.Machine

/-- `v[7:0]` of a 16-bit value (R10). -/
def lowByte (v : Word) : Byte := v.extractLsb' 0 8

/-- `v[15:8]` of a 16-bit value (R10). -/
def highByte (v : Word) : Byte := v.extractLsb' 8 8

/-- `{h, l}`: `h` above `l` (R10). -/
def wordOfBytes (h l : Byte) : Word := h ++ l

/-- `zext_16(v)`: bits 15..8 are 0 (R10). -/
def zext16 (v : Byte) : Word := v.setWidth 16

/-- BYTE's operand put to the accumulator: `acc XOR zext_16(d)`, which changes `acc[7:0]` only (R48). -/
def xorOperand (acc : Word) (d : Byte) : Word := acc ^^^ zext16 d

end Sys2Proof.Machine
end

