-- ==== Sys2Proof/Machine/Crc.lean ====
section
/-!
DEFINITION. The CRC: the constants of R8, `crc_step` and `crc_byte` (R11), `crc16` (R12), and the table and bit-serial
forms an implementation may use instead (R67, R68).
-/

namespace Sys2Proof.Machine

/-- `CRC_INIT` (R8). -/
def crcInit : Word := 0xFFFF#16

/-- `CRC_POLY_REFLECTED`, the constant XORed after a right shift (R8, C1). -/
def crcPolyReflected : Word := 0xA001#16

/-- `CRC_XOROUT`: no final XOR (R8). -/
def crcXorOut : Word := 0x0000#16

/-- Steps per byte: "perform 8 iterations" (R8). -/
def stepsPerByte : Nat := 8

/-- `crc_step` (R11): the low bit is tested before the logical right shift. -/
def crcStep (a : Word) : Word :=
  if a[0] then (a >>> 1) ^^^ crcPolyReflected else a >>> 1

/-- `crc_step^n` (R10, R11). -/
def crcSteps : Nat → Word → Word
  | 0, a => a
  | n + 1, a => crcSteps n (crcStep a)

/-- `crc_byte` (R11). -/
def crcByte (a : Word) (d : Byte) : Word := crcSteps stepsPerByte (xorOperand a d)

/-- The accumulator after a message absorbed from `a`: `crc_byte` on each byte in list order (R12, R28). -/
def absorb (a : Word) (m : List Byte) : Word := m.foldl crcByte a

/-- `crc16` (R12); the final XOR is with 0 (R8). -/
def crc16 (m : List Byte) : Word := absorb crcInit m ^^^ crcXorOut

/-- `T[i] = crc_byte(0x0000, i)` (R67). -/
def crcTable (i : Byte) : Word := crcByte 0x0000#16 i

/-- The table form of `crc_byte` (R67). -/
def crcByteByTable (a : Word) (d : Byte) : Word := zext16 (highByte a) ^^^ crcTable (lowByte a ^^^ d)

/-- `crc_bit` (R68). -/
def crcBit (a : Word) (b : Bool) : Word :=
  (a >>> 1) ^^^ (if a[0] ^^ b then crcPolyReflected else 0x0000#16)

/-- The bits of a byte, `d[0]` first (R33, R68). -/
def bitsLsbFirst (d : Byte) : List Bool := (List.range 8).map d.getLsbD

/-- The bit-serial form of `crc_byte` (R68). -/
def crcByteBySerial (a : Word) (d : Byte) : Word := (bitsLsbFirst d).foldl crcBit a

end Sys2Proof.Machine
end

