-- ==== Sys2Proof/Config.lean ====
section
/-!
DEFINITION. What an implementation fixes (R9) and the free values: the values the spec leaves unspecified.
The free values are opaque constants, so no proof can know one (logs 7, 8 and 9).
-/

namespace Sys2Proof

/-- The legal values of the parameter `P_BITS_PER_CYCLE` (R9, D10): LFSR steps per clock cycle. -/
inductive BitsPerCycle where
  | one | two | four | eight
  deriving DecidableEq, Repr

/-- The spec's default, 8 (R9). -/
def Config.defaultBitsPerCycle : BitsPerCycle := .eight

/-- FREE VALUE (DESIGN CHOICE, log 9; safe): what `crc` shows while a BYTE is in progress (R24, R107, U2), from the
number of the draw, the step counter and the intermediate LFSR value. -/
opaque Config.busyCrc : Nat → BitVec 3 → Word → Word

/-- FREE VALUE (DESIGN CHOICE, log 8; safe): the unspecified `acc` before the first reset edge (R23, U1), from the
number of the draw and the `acc`, `err` and `cnt` before. -/
opaque Config.powerUpAcc : Nat → Word → Bool → BitVec 3 → Word

/-- FREE VALUE (DESIGN CHOICE, log 8; safe): the unspecified `err` before the first reset edge (R23, U1), from the
same. -/
opaque Config.powerUpErr : Nat → Word → Bool → BitVec 3 → Bool

/-- FREE VALUE (DESIGN CHOICE, log 8; safe): the unspecified `cnt` before the first reset edge (R23, U1), from the
same. -/
opaque Config.powerUpCnt : Nat → Word → Bool → BitVec 3 → BitVec 3

end Sys2Proof
end

