-- ==== Sys2Proof/Machine/State.lean ====
section
/-!
DEFINITION. The state of the block (R13, R17, R20), what the host does at its pins (R46, R113), the reasons a step can
stop, and the state after reset (R22).
-/

namespace Sys2Proof.Machine

/-- The input ports at one moment (R46); `clk` is the step itself. -/
structure Pins where
  rst : Bool
  cmdValid : Bool
  cmdOp : BitVec 2
  cmdData : Byte
  deriving DecidableEq, Repr

/-- One thing the host does to the block, one step of the model each (DESIGN CHOICE, logs 3 and 4; safe). -/
inductive Input where
  /-- A rising edge of `clk` that samples these pins (R44, R49). -/
  | edge (p : Pins)
  /-- A time with no rising edge, whatever the pins carry: between edges, or `clk` stopped (R44, R96, R97). -/
  | noEdge (p : Pins)
  /-- A rising edge at which the host presents this word; the host presents it again until it is accepted (R106). -/
  | offer (w : CmdWord)
  /-- The host issues no command until `cmd_ready = 1` (R54 `wait`, R104). -/
  | wait
  /-- Power is lost and returns (R96). -/
  | powerLoss
  deriving DecidableEq, Repr

/-- The machine. `acc`, `err` and `cnt` are the block's whole state (10_state.md); the other fields are the parameter,
the record R88 asks of a model, and the model's own fields, each named in INVENTORY.md. -/
structure State where
  /-- The CRC accumulator (R13). -/
  acc : Word
  /-- The sticky illegal-command flag (R17). -/
  err : Bool
  /-- The cycles the BYTE in progress still needs; 0 is idle (R20). -/
  cnt : BitVec 3
  /-- The model's record of an IllegalCommand, kept for the whole run (R88), across a reset edge and a
  loss of power too (DEDUCED, log 6; unsafe for a claim that it is kept across these, safe otherwise). -/
  illegalCommand : Bool
  /-- The index of the host's next command: the number of commands accepted (R16; DEDUCED, log 5; safe). -/
  cmdIndex : Nat
  /-- `P_BITS_PER_CYCLE` of this machine; no step changes it (R9; DESIGN CHOICE, log 2; unsafe). -/
  bitsPerCycle : BitsPerCycle
  /-- Whether an edge with `rst = 1` has come since power came up (R23, R101; DEDUCED, log 14; safe). -/
  resetDone : Bool
  /-- What the host does next, oldest first (DESIGN CHOICE, log 3; unsafe). -/
  script : List Input
  /-- How many free values have been drawn (DESIGN CHOICE, log 9; safe). -/
  draws : Nat
  deriving DecidableEq, Repr

/-- The reasons a step stops the machine: none. The one exceptional event, IllegalCommand, does not stop the block
(R77, R84, R88), so no step faults. -/
inductive Fault where
  deriving DecidableEq, Repr

/-- The reasons a step is given no meaning. -/
inductive Refusal where
  /-- An instruction whose arm has no meaning yet; raised by no arm of `exec`. Safe. -/
  | notModelled (mnemonic : String)
  /-- A command presented at an edge with `rst = 0` before the first reset edge: the spec gives it no meaning "(refuse)"
  (R23, U1). Raised by `clockEdge`. Safe. -/
  | beforeReset
  deriving DecidableEq, Repr

/-- The block right after a reset edge (R22), with nothing for the host to do, as a run starts (R23). -/
def State.reset : State where
  acc := 0xFFFF#16
  err := false
  cnt := 0#3
  illegalCommand := false
  cmdIndex := 0
  bitsPerCycle := Config.defaultBitsPerCycle
  resetDone := true
  script := []
  draws := 0

/-! The updates, one per field that a step writes. -/

def State.setAcc (s : State) (v : Word) : State := { s with acc := v }
def State.setErr (s : State) (v : Bool) : State := { s with err := v }
def State.setCnt (s : State) (v : BitVec 3) : State := { s with cnt := v }
def State.setIllegalCommand (s : State) (v : Bool) : State := { s with illegalCommand := v }
def State.setCmdIndex (s : State) (v : Nat) : State := { s with cmdIndex := v }
def State.setResetDone (s : State) (v : Bool) : State := { s with resetDone := v }
def State.setScript (s : State) (v : List Input) : State := { s with script := v }
def State.setDraws (s : State) (v : Nat) : State := { s with draws := v }

end Sys2Proof.Machine
end

