-- ==== Sys2Proof/Machine/Flags.lean ====
section
/-!
DEFINITION. The one flag, `err` (R17), and the one status derived from state, `cmd_ready` (R18).
-/

namespace Sys2Proof.Machine

/-- `err <- 1`, sticky (R17, R88). -/
def raiseErr (s : State) : State := s.setErr true

/-- `err <- 0`: reset alone does it (R17, R22, R89). -/
def clearErr (s : State) : State := s.setErr false

/-- `cmd_ready = (cnt == 0) AND (rst == 0)` (R18). -/
def cmdReadyOf (cnt : BitVec 3) (rst : Bool) : Bool := cnt == 0#3 && !rst

end Sys2Proof.Machine
end

