-- ==== Sys2Proof/Machine/Ops.lean ====
section
/-!
DEFINITION. The operations the commands and the clock edge share: starting a message, starting and continuing a BYTE
(R64), IllegalCommand (R88), reset (R22), and the loss of power (R23, R96).
-/

namespace Sys2Proof.Machine

/-- `P`, the LFSR steps of one clock cycle (R9). -/
def stepsPerCycle : BitsPerCycle → Nat
  | .one => 1
  | .two => 2
  | .four => 4
  | .eight => 8

/-- `BYTE_CYCLES = 8 / P_BITS_PER_CYCLE` (R9). -/
def byteCycles (p : BitsPerCycle) : Nat := stepsPerByte / stepsPerCycle p

/-- `acc <- 0xFFFF` (R62). -/
def startMessage (s : State) : State := s.setAcc crcInit

/-- One more free value has been drawn, so that every cycle of a busy window shows one of its own (R24; log 9). -/
def nextDraw (s : State) : State := s.setDraws (s.draws + 1)

/-- The accepting edge of BYTE d: the XOR, the first P steps, and `cnt <- N - 1` (R55, R64). -/
def startByte (d : Byte) (s : State) : State :=
  nextDraw ((s.setAcc (crcSteps (stepsPerCycle s.bitsPerCycle) (xorOperand s.acc d))).setCnt
    (BitVec.ofNat 3 (byteCycles s.bitsPerCycle - 1)))

/-- A later edge of a BYTE in progress: P more steps, `cnt <- cnt - 1` (R55, R64). -/
def continueByte (s : State) : State :=
  nextDraw ((s.setAcc (crcSteps (stepsPerCycle s.bitsPerCycle) s.acc)).setCnt (s.cnt - 1#3))

/-- `raise IllegalCommand()`: `err <- 1` and the model's record; `acc` and `cnt` unchanged, nothing saved, no jump, and
the block goes on (R84, R88). -/
def raiseIllegalCommand (s : State) : State := (raiseErr s).setIllegalCommand true

/-- An edge with `rst = 1`: the state takes its reset values, whatever it held (R22, R97). It is
the only way `err` returns to 0 (R89), and it leaves the record of IllegalCommand (R88; log 6). -/
def applyReset (s : State) : State := ((clearErr (s.setAcc crcInit)).setCnt 0#3).setResetDone true

/-- The registers take unspecified values, free ones (R23; log 8). -/
def unspecify (s : State) : State :=
  nextDraw (((s.setAcc (Config.powerUpAcc s.draws s.acc s.err s.cnt)).setErr
    (Config.powerUpErr s.draws s.acc s.err s.cnt)).setCnt (Config.powerUpCnt s.draws s.acc s.err s.cnt))

/-- Power is lost and returns: all state is lost and is unspecified until a reset (R96, R101). -/
def losePower (s : State) : State := (unspecify s).setResetDone false

/-- One command accepted: the host's index advances by exactly 1 (R16). -/
def noteAccepted (s : State) : State := s.setCmdIndex (s.cmdIndex + 1)

end Sys2Proof.Machine
end

