-- ==== Sys2Proof/Machine/Data.lean ====
section
/-!
DEFINITION. The meaning of the one data command, BYTE (R63).
-/

namespace Sys2Proof.Machine

/-- BYTE d: at its accepting edge the block XORs `d` in and makes the first P of its 8 steps; with the default P = 8 that
is all of `crc_byte` (R63, R64). -/
def execByte (d : Byte) (s : State) : Host.Outcome State Fault Refusal := .next (startByte d s)

end Sys2Proof.Machine
end

