-- ==== Sys2Proof/Machine/Illegal.lean ====
section
/-!
DEFINITION. The meaning of the reserved words (R51): they take the one exceptional event (R78).
-/

namespace Sys2Proof.Machine

/-- A reserved word: IllegalCommand; `data` is ignored (R51, R88, R48). -/
def execReserved (_data : Byte) (s : State) : Host.Outcome State Fault Refusal := .next (raiseIllegalCommand s)

end Sys2Proof.Machine
end

