-- ==== Sys2Proof/Machine/System.lean ====
section
/-!
DEFINITION. The meanings of the non-data commands, NOP and INIT (R76). A meaning is the command's arm of R55: what its
accepting edge does.
-/

namespace Sys2Proof.Machine

/-- NOP: nothing; `data` is ignored (R61, R48). -/
def execNop (_data : Byte) (s : State) : Host.Outcome State Fault Refusal := .next s

/-- INIT: `acc <- 0xFFFF`; `err` unchanged; `data` is ignored (R62, R48). -/
def execInit (_data : Byte) (s : State) : Host.Outcome State Fault Refusal := .next (startMessage s)

end Sys2Proof.Machine
end

