-- ==== Sys2Proof/Syntax.lean ====
section
/-!
DEFINITION. The commands: one constructor per row of spec/opcode_table.json (R47).
-/

namespace Sys2Proof

/-- A command word as the block reads it (R47, R50). Every constructor carries the word's `data` field; all but
`byte` ignore it (R48). It is kept so that no bit of the word is lost (DESIGN CHOICE, log 10; safe). -/
inductive Instr where
  /-- NOP, op 0b00 (R61). -/
  | nop (data : Byte)
  /-- INIT, op 0b01 (R62). -/
  | init (data : Byte)
  /-- BYTE d, op 0b10 (R63). -/
  | byte (d : Byte)
  /-- The reserved op 0b11 (R51, R88). -/
  | reserved (data : Byte)
  deriving DecidableEq, Repr

end Sys2Proof
end

