-- ==== Sys2Proof/Machine/Dispatch.lean ====
section
/-!
DEFINITION. The effect of an accepted command: one arm per constructor of `Instr` (R47, R55).
-/

namespace Sys2Proof.Machine

def exec (i : Instr) (s : State) : Host.Outcome State Fault Refusal :=
  match i with
  | .nop data => Sys2Proof.Machine.execNop data s
  | .init data => Sys2Proof.Machine.execInit data s
  | .byte d => Sys2Proof.Machine.execByte d s
  | .reserved data => Sys2Proof.Machine.execReserved data s

end Sys2Proof.Machine
end

