-- ==== Sys2Proof/Decode.lean ====
section
/-!
DEFINITION. The command word's fields (R45), the decoder (R47, R50), the encoder, and the decoder of numbers.
Each constructor's decoding is shown by words written out from R50's ranges.
-/

namespace Sys2Proof

/-- `op = cmd[9:8]` (R45). -/
def cmdOpOf (w : CmdWord) : BitVec 2 := w.extractLsb' 8 2

/-- `data = cmd[7:0]` (R45). -/
def cmdDataOf (w : CmdWord) : Byte := w.extractLsb' 0 8

/-- The command word of an op and a data field, `op * 0x100 + data` as a number (R45). -/
def cmdWord (op : BitVec 2) (data : Byte) : CmdWord := op ++ data

/-- The command a word stands for: the two op bits alone select it, for every one of the 1024 words (R47, R50). The
last case is op 0b11, the only op left. -/
def decode (w : CmdWord) : Instr :=
  if cmdOpOf w = 0b00#2 then .nop (cmdDataOf w)
  else if cmdOpOf w = 0b01#2 then .init (cmdDataOf w)
  else if cmdOpOf w = 0b10#2 then .byte (cmdDataOf w)
  else .reserved (cmdDataOf w)

/-- The word of a command (R45, R47). -/
def encode : Instr → CmdWord
  | .nop data => cmdWord 0b00#2 data
  | .init data => cmdWord 0b01#2 data
  | .byte d => cmdWord 0b10#2 d
  | .reserved data => cmdWord 0b11#2 data

/-- Why a number is no command. -/
inductive DecodeReject where
  /-- The number does not fit the 10-bit command word (R52, R53: 0..1023). Safe. -/
  | notTenBits
  deriving DecidableEq, Repr

/-- The command whose word is the number `n`; a number above 1023 is rejected by name (R52; log 11). -/
def decodeNat (n : Nat) : Except DecodeReject Instr :=
  if n < 1024 then .ok (decode (BitVec.ofNat 10 n)) else .error .notTenBits

/-- The command of a row of spec/opcode_table.json: the low `nbits` bits of `w`, as one 10-bit word (R45, R52; log 11). -/
def decodeTableWord (nbits w : Nat) : Option Instr :=
  match decodeNat (w % 2 ^ nbits) with
  | .ok i => some i
  | .error _ => none

/-! R50's ranges at both ends, and R53's words. -/

theorem decode_nop_first : decode 0b0000000000#10 = .nop 0x00 := by decide
theorem decode_nop_last : decode 0b0011111111#10 = .nop 0xFF := by decide
theorem decode_init_first : decode 0b0100000000#10 = .init 0x00 := by decide
theorem decode_init_last : decode 0b0111111111#10 = .init 0xFF := by decide
theorem decode_byte_first : decode 0b1000000000#10 = .byte 0x00 := by decide
theorem decode_byte_d0 : decode 0b1000000001#10 = .byte 0x01 := by decide
theorem decode_byte_d7 : decode 0b1010000000#10 = .byte 0x80 := by decide
theorem decode_byte_last : decode 0b1011111111#10 = .byte 0xFF := by decide
theorem decode_reserved_first : decode 0b1100000000#10 = .reserved 0x00 := by decide
theorem decode_reserved_last : decode 0b1111111111#10 = .reserved 0xFF := by decide

end Sys2Proof
end

