-- ==== Sys2Proof/Machine/Ports.lean ====
section
/-!
DEFINITION. The ports (R46): what the host drives and what it reads. Reading a port changes nothing
(R30). The ports of a state are those before its next edge, so a host that reads `crc` as it presents a command sees the
value from before that command (R105).
-/

namespace Sys2Proof.Machine

/-- The command word on the port, `cmd_op` above `cmd_data` (R45, R46). -/
def Pins.cmd (p : Pins) : CmdWord := cmdWord p.cmdOp p.cmdData

/-- The host presents no command and no reset. -/
def Pins.idle : Pins := ⟨false, false, 0#2, 0#8⟩

/-- The host presents a command (R46). -/
def Pins.command (w : CmdWord) : Pins := ⟨false, true, cmdOpOf w, cmdDataOf w⟩

/-- The host asserts reset (R97). -/
def Pins.reset : Pins := ⟨true, false, 0#2, 0#8⟩

/-- What an input puts on the pins; a `wait`, like no input at all, presents nothing (R54). With the power off the pins are
taken as idle; no edge samples them (log 3). -/
def Input.pins : Input → Pins
  | .edge p => p
  | .noEdge p => p
  | .offer w => Pins.command w
  | .wait => Pins.idle
  | .powerLoss => Pins.idle

/-- The pins now: those of the host's next input (log 3). -/
def State.pins (s : State) : Pins :=
  match s.script with
  | [] => Pins.idle
  | x :: _ => x.pins

/-- The `cmd_ready` port (R18, R46). -/
def State.cmdReady (s : State) : Bool := cmdReadyOf s.cnt s.pins.rst

/-- The `crc` port: `acc`, except while a BYTE is in progress, when it shows any value (R24, R107; log 9). -/
def State.crc (s : State) : Word :=
  if s.cnt = 0#3 then s.acc else Config.busyCrc s.draws s.cnt s.acc

/-- The `crc_lo` port, the first check byte of a frame (R24, R46). -/
def State.crcLo (s : State) : Byte := lowByte s.crc

/-- The `crc_hi` port, the second check byte of a frame (R24, R46). -/
def State.crcHi (s : State) : Byte := highByte s.crc

/-- The `err` port (R17, R46). -/
def State.errPort (s : State) : Bool := s.err

end Sys2Proof.Machine
end

