-- ==== Sys2Proof/Machine/Clock.lean ====
section
/-!
DEFINITION. The clock-level step (R55): when a command is accepted (R49), what a rising edge does in the priority of R82,
and what each input of the host does.
-/

namespace Sys2Proof.Machine

/-- Whether the edge that samples these pins accepts a command: `rst = 0`, `cmd_valid = 1` and `cmd_ready = 1` (R49). -/
def accepts (p : Pins) (s : State) : Bool := !p.rst && p.cmdValid && cmdReadyOf s.cnt p.rst

/-- A rising edge that samples these pins: reset, the BYTE in progress, the command, or nothing (R55, R82). Before the
first reset edge a command is refused and the registers stay unspecified (R23; log 7). -/
def clockEdge (p : Pins) (s : State) : Host.Outcome State Fault Refusal :=
  if p.rst then .next (applyReset s)
  else if s.resetDone = false then
    (if p.cmdValid then .refused .beforeReset else .next (unspecify s))
  else if s.cnt ≠ 0#3 then .next (continueByte s)
  else if p.cmdValid then exec (decode p.cmd) (noteAccepted s)
  else .next s

/-- The host's next input, done. With none left the host presents nothing and the clock goes on (log 3). An `offer` stays
next until an edge accepts it (R106), a `wait` until `cmd_ready = 1` (R54; log 4). -/
def advance (s : State) : Host.Outcome State Fault Refusal :=
  match s.script with
  | [] => clockEdge Pins.idle s
  | .edge p :: rest => clockEdge p (s.setScript rest)
  | .noEdge _ :: rest => .next (s.setScript rest)
  | .offer w :: rest =>
    if accepts (Pins.command w) s then clockEdge (Pins.command w) (s.setScript rest)
    else clockEdge (Pins.command w) s
  | .wait :: rest => if s.cmdReady then .next (s.setScript rest) else clockEdge Pins.idle s
  | .powerLoss :: rest => .next (losePower (s.setScript rest))

/-- The command word that is the low `nbits` bits of `w`, presented at the very next edge to a block that is out of reset
and ready, so that that edge accepts it (R49; log 11). -/
def presentWord (s : State) (nbits w : Nat) : State :=
  ((s.setScript (.edge (Pins.command (BitVec.ofNat 10 (w % 2 ^ nbits))) :: s.script)).setCnt 0#3).setResetDone true

end Sys2Proof.Machine
end

