-- ==== Sys2Proof/Machine/Step.lean ====
section
/-!
DEFINITION. One step of the machine: the host's next input (R44, R55; log 1).
-/

namespace Sys2Proof.Machine

/-- One step (R55). -/
def step (s : State) : Host.Outcome State Fault Refusal := advance s

/-- The state whose very next step runs the word `w` (log 11). -/
def State.withFetchWord (s : State) (nbits w : Nat) : State := presentWord s nbits w

end Sys2Proof.Machine
end

