-- ==== Sys2Proof/WellFormed.lean ====
section
/-!
DEFINITION. The checks on syntax. An `Instr` needs none: its fields are bit vectors of the encoding's widths, and every
one of the 1024 words is a command (R50). The checks of the spec are on assembler lines, whose operands are numbers (R53).
-/

namespace Sys2Proof

/-- One line of a command program, its operands still numbers (R53, R54). -/
inductive AsmLine where
  | nop
  | init
  /-- `byte <imm8>`. -/
  | byte (imm8 : Nat)
  /-- `.word <imm10>`. -/
  | word (imm10 : Nat)
  /-- The pseudo-command `crc <b1>, ..., <bn>`. -/
  | crc (bytes : List Nat)
  /-- The pseudo-command `wait`. -/
  | wait
  deriving DecidableEq, Repr

/-- "`imm8` an unsigned number 0..255" (R53). -/
def imm8Ok (n : Nat) : Bool := n < 256

/-- "imm10 exactly, 0..1023" (R53). -/
def imm10Ok (n : Nat) : Bool := n < 1024

/-- Whether the line assembles; otherwise it is an assembly error and no word is produced (R53). The operands of `crc`
are those of the `byte` lines it expands to (R54). -/
def AsmLine.wellFormed : AsmLine → Bool
  | .nop => true
  | .init => true
  | .byte n => imm8Ok n
  | .word n => imm10Ok n
  | .crc bs => bs.all imm8Ok
  | .wait => true

end Sys2Proof
end

