-- ==== Sys2Proof/Machine/Asm.lean ====
section
/-!
DEFINITION. The assembler (R53, R54): a line to its words, a program to what the host does, and the text of a line to the
line. Text is a list of characters (log 12).
-/

namespace Sys2Proof.Machine

/-- The word of `byte <imm8>`: 0x200 + imm8 (R53). -/
def byteWord (d : Byte) : CmdWord := encode (.byte d)

/-- The word of `nop`: 0x000 (R53). -/
def nopWord : CmdWord := encode (.nop 0x00#8)

/-- The word of `init`: 0x100 (R53). -/
def initWord : CmdWord := encode (.init 0x00#8)

/-- The words of `crc` on these bytes: `init`, then a `byte` for each in order (R54). -/
def crcWords (m : List Byte) : List CmdWord := initWord :: m.map byteWord

/-- The words of a line that is well formed. -/
def lineWords : AsmLine → List CmdWord
  | .nop => [nopWord]
  | .init => [initWord]
  | .byte n => [byteWord (BitVec.ofNat 8 n)]
  | .word n => [BitVec.ofNat 10 n]
  | .crc bs => crcWords (bs.map (BitVec.ofNat 8))
  | .wait => []

/-- The words a line assembles to; none where the line is refused (R53). -/
def assembleLine (l : AsmLine) : Option (List CmdWord) :=
  if l.wellFormed then some (lineWords l) else none

/-- The words of a program; none where a line is refused (R53; log 12). -/
def assemble : List AsmLine → Option (List CmdWord)
  | [] => some []
  | l :: ls =>
    match assembleLine l, assemble ls with
    | some ws, some rest => some (ws ++ rest)
    | _, _ => none

/-- What a host does that runs a line: it offers each word, and `wait` has no word (R54, R106). -/
def lineInputs : AsmLine → Option (List Input)
  | .wait => some [.wait]
  | l => (assembleLine l).map (List.map .offer)

/-- What a host does that runs a program (R16, R104). -/
def programInputs : List AsmLine → Option (List Input)
  | [] => some []
  | l :: ls =>
    match lineInputs l, programInputs ls with
    | some xs, some rest => some (xs ++ rest)
    | _, _ => none

/-! The text of a line (R53): `;` starts a comment, mnemonics are lower case, numbers are decimal or `0x` hex. -/

/-- A space, a tab or a carriage return. -/
def isBlank (c : Char) : Bool := c == ' ' || c == '\t' || c == '\r'

/-- The text before the comment (R53). -/
def stripComment (cs : List Char) : List Char := cs.takeWhile (· != ';')

/-- The text without the blanks at its ends. -/
def trim (cs : List Char) : List Char := ((cs.dropWhile isBlank).reverse.dropWhile isBlank).reverse

/-- The value of a decimal digit. -/
def decDigit (c : Char) : Option Nat :=
  if '0' ≤ c ∧ c ≤ '9' then some (c.toNat - 48) else none

/-- The value of a hex digit, in either case (log 12). -/
def hexDigit (c : Char) : Option Nat :=
  if '0' ≤ c ∧ c ≤ '9' then some (c.toNat - 48)
  else if 'a' ≤ c ∧ c ≤ 'f' then some (c.toNat - 87)
  else if 'A' ≤ c ∧ c ≤ 'F' then some (c.toNat - 55)
  else none

/-- The number that digits spell, after the digits already read. -/
def digitsFrom (digit : Char → Option Nat) (base acc : Nat) : List Char → Option Nat
  | [] => some acc
  | c :: cs =>
    match digit c with
    | some v => digitsFrom digit base (acc * base + v) cs
    | none => none

/-- A number, in decimal or `0x` hex, with at least one digit (R53). -/
def parseNumber : List Char → Option Nat
  | [] => none
  | ['0', 'x'] => none
  | '0' :: 'x' :: cs => digitsFrom hexDigit 16 0 cs
  | cs => digitsFrom decDigit 10 0 cs

/-- The text between commas. -/
def splitCommas : List Char → List (List Char)
  | [] => [[]]
  | c :: cs =>
    if c == ',' then [] :: splitCommas cs
    else
      match splitCommas cs with
      | [] => [[c]]
      | part :: parts => (c :: part) :: parts

/-- Every part parsed, or none. -/
def parseNumbers : List (List Char) → Option (List Nat)
  | [] => some []
  | p :: ps =>
    match parseNumber (trim p), parseNumbers ps with
    | some n, some ns => some (n :: ns)
    | _, _ => none

/-- The line of a mnemonic and the text after it; none where the line is refused (R53, R54). -/
def lineOf (mnemonic operands : List Char) : Option AsmLine :=
  if mnemonic = ['n', 'o', 'p'] then (if operands = [] then some .nop else none)
  else if mnemonic = ['i', 'n', 'i', 't'] then (if operands = [] then some .init else none)
  else if mnemonic = ['w', 'a', 'i', 't'] then (if operands = [] then some .wait else none)
  else if mnemonic = ['b', 'y', 't', 'e'] then (parseNumber operands).map .byte
  else if mnemonic = ['.', 'w', 'o', 'r', 'd'] then (parseNumber operands).map .word
  else if mnemonic = ['c', 'r', 'c'] then
    (if operands = [] then some (.crc []) else (parseNumbers (splitCommas operands)).map .crc)
  else none

/-- What a line of text holds. -/
inductive SourceLine where
  /-- Nothing but blanks and a comment. -/
  | blank
  /-- A command. -/
  | command (l : AsmLine)
  /-- Neither: an assembly error (R53). -/
  | refused
  deriving DecidableEq, Repr

/-- A line of text read (R53). -/
def parseLine (cs : List Char) : SourceLine :=
  let body := trim (stripComment cs)
  if body = [] then .blank
  else
    match lineOf (body.takeWhile (fun c => !isBlank c)) (trim (body.dropWhile (fun c => !isBlank c))) with
    | some l => .command l
    | none => .refused

/-- A program's lines of text read; none where a line is refused (R53). -/
def parseProgram : List (List Char) → Option (List AsmLine)
  | [] => some []
  | cs :: rest =>
    match parseLine cs, parseProgram rest with
    | .blank, some ls => some ls
    | .command l, some ls => some (l :: ls)
    | _, _ => none

end Sys2Proof.Machine
end

