-- ==== Sys2Proof/Machine/Frame.lean ====
section
/-!
DEFINITION. What the host makes of a checksum: the check bytes and the frame (R32, R60), the Modbus request the source
sends (R35, R70), and the check of a received frame (R73).
-/

namespace Sys2Proof.Machine

/-- The two check bytes of a checksum, low byte first (R32). -/
def checkBytes (c : Word) : List Byte := [lowByte c, highByte c]

/-- The frame of a payload: `m ++ [crc_lo, crc_hi]` (R60). -/
def frameOf (m : List Byte) : List Byte := m ++ checkBytes (crc16 m)

/-- A request's payload: address and function code, then two fields of two bytes, high byte first (R35). -/
def requestPayload (address function : Byte) (register count : Word) : List Byte :=
  [address, function, highByte register, lowByte register, highByte count, lowByte count]

/-- The residue test of a received frame, its check bytes included (R73). -/
def frameIntact (frame : List Byte) : Bool := crc16 frame == 0x0000#16

end Sys2Proof.Machine
end

