-- ==== Sys2Proof/Machine/Run.lean ====
section
/-!
DEFINITION. A run of several steps (R38, R114), in the model's own types.
-/

namespace Sys2Proof.Machine

/-- `k` steps, stopping where one gives no next state. -/
def runSteps : Nat → State → Host.Outcome State Fault Refusal
  | 0, s => .next s
  | k + 1, s =>
    match step s with
    | .next t => runSteps k t
    | .fault f => .fault f
    | .refused r => .refused r

end Sys2Proof.Machine
end

