-- ==== Sys2Proof/Machine/Transaction.lean ====
section
/-!
DEFINITION. The transaction-level model (R56): one step per accepted command on `(acc, err)` and the fault record, and
the cycle counts of R111. It is written from R56 on its own, so that the clock-level machine can be held against it.
-/

namespace Sys2Proof.Machine

/-- The architectural state `(acc, err)` with the fault record R56 and R114 speak of. -/
structure Arch where
  acc : Word
  err : Bool
  illegalCommand : Bool
  deriving DecidableEq, Repr

/-- The observation of a state (R114). -/
def State.arch (s : State) : Arch := ⟨s.acc, s.err, s.illegalCommand⟩

/-- `exec(c, (acc, err))` (R56). -/
def transact (a : Arch) (c : CmdWord) : Arch :=
  if cmdOpOf c = 0b00#2 then a
  else if cmdOpOf c = 0b01#2 then { a with acc := crcInit }
  else if cmdOpOf c = 0b10#2 then { a with acc := crcByte a.acc (cmdDataOf c) }
  else { a with err := true, illegalCommand := true }

/-- A run of commands: the left fold (R38, R56). -/
def transactAll (a : Arch) (cs : List CmdWord) : Arch := cs.foldl transact a

/-- The cycles a command takes, from its acceptance to the next possible acceptance (R111). -/
def commandCycles (p : BitsPerCycle) (c : CmdWord) : Nat :=
  if cmdOpOf c = 0b10#2 then byteCycles p else 1

/-- The cycles a run of commands takes when the host presents each at once (R111). -/
def runCycles (p : BitsPerCycle) (cs : List CmdWord) : Nat := (cs.map (commandCycles p)).sum

end Sys2Proof.Machine
end

