-- ==== Sys2Proof/Safety.lean ====
section
/-!
DEFINITION. The terms claims are stated in: a block that is ready, the invariant of the registers, a host that waits for
the block, the end of a run, and a run that is safe.
-/

namespace Sys2Proof.Machine

/-- The block is out of reset and idle: it accepts a command at the next edge with `rst = 0` (R18, R100). -/
abbrev State.Ready (s : State) : Prop := s.resetDone = true ∧ s.cnt = 0#3

/-- Once the block has been reset, `cnt` is in `0 .. BYTE_CYCLES - 1` (R20), and `err` is set only where an IllegalCommand
is recorded (R88). -/
def State.Inv (s : State) : Prop :=
  s.resetDone = true →
    s.cnt.toNat < byteCycles s.bitsPerCycle ∧ (s.err = true → s.illegalCommand = true)

/-- An input of a host that loses no command: it holds each until accepted, or waits (R104, R106). -/
def Input.patient : Input → Bool
  | .edge _ => false
  | .noEdge _ => false
  | .offer _ => true
  | .wait => true
  | .powerLoss => false

/-- An input of a host that resets nothing and presents a command only until it is accepted: an idle edge, no edge, an
offer or a wait. Between such inputs lie any number of idle cycles (R58). -/
def Input.quiet : Input → Bool
  | .edge p => !p.rst && !p.cmdValid
  | .noEdge _ => true
  | .offer _ => true
  | .wait => true
  | .powerLoss => false

/-- The words a host offers, in order. -/
def offeredWords : List Input → List CmdWord
  | [] => []
  | .offer w :: xs => w :: offeredWords xs
  | .edge _ :: xs => offeredWords xs
  | .noEdge _ :: xs => offeredWords xs
  | .wait :: xs => offeredWords xs
  | .powerLoss :: xs => offeredWords xs

/-- Whether the word is a NOP (R47). -/
def isNopWord (w : CmdWord) : Bool := cmdOpOf w == 0b00#2

/-- The host's list is exhausted and `cmd_ready = 1`: the run is over (R114). R114 speaks of a list whose every command has
been accepted, and does not say whether a command that the host presents at a single edge and withdraws, so that no edge
accepts it (R106, R113), still counts as one of the list; here it does not (DESIGN CHOICE, log 17; unsafe). -/
def State.runOver (s : State) : Bool := s.script.isEmpty && s.cmdReady

/-- No IllegalCommand is recorded: the premise every claim about a run carries (R88). -/
def State.noIllegalCommand (s : State) : Bool := !s.illegalCommand

/-- The value on `crc` is architectural: the block has been reset and no BYTE is in progress (R23, R24, R107). -/
def State.crcArchitectural (s : State) : Bool := s.resetDone && s.cnt == 0#3

end Sys2Proof.Machine
end

