-- ==== Sys2Proof/Certificates/Slice0/Obligations.lean ====
section
/-!
DEFINITION. The statements for the provers. Each docstring names the rule it formalises.
-/

open Sys2Proof Sys2Proof.Machine

/-! Encoding -/

/-- R45, R47, R50: decoding and encoding are inverse to each other, on every command and every word. -/
def Obligations.DecodeEncodeAgree : Prop :=
  (∀ i : Instr, decode (encode i) = i) ∧ ∀ w : CmdWord, encode (decode w) = w

/-- R50: the four ranges of words, and the match and mask of each row of the table. -/
def Obligations.DecodeByRange : Prop :=
  ∀ w : CmdWord,
    (w.toNat ≤ 0x0FF → decode w = .nop (w.extractLsb' 0 8)) ∧
    (0x100 ≤ w.toNat ∧ w.toNat ≤ 0x1FF → decode w = .init (w.extractLsb' 0 8)) ∧
    (0x200 ≤ w.toNat ∧ w.toNat ≤ 0x2FF → decode w = .byte (w.extractLsb' 0 8)) ∧
    (0x300 ≤ w.toNat → decode w = .reserved (w.extractLsb' 0 8)) ∧
    (w &&& 0x300#10 = 0x000#10 ↔ ∃ data, decode w = .nop data) ∧
    (w &&& 0x300#10 = 0x100#10 ↔ ∃ data, decode w = .init data) ∧
    (w &&& 0x300#10 = 0x200#10 ↔ ∃ d, decode w = .byte d) ∧
    (w &&& 0x300#10 = 0x300#10 ↔ ∃ data, decode w = .reserved data)

/-- R47, R48, R51: some words, written out bit by bit, and the commands they are. -/
def Obligations.SampleWordsDecode : Prop :=
  decode 0b0010100101#10 = .nop 0xA5#8 ∧
  decode 0b0100000000#10 = .init 0x00#8 ∧
  decode 0b0111111111#10 = .init 0xFF#8 ∧
  decode 0b1000000001#10 = .byte 0x01#8 ∧
  decode 0b1001100100#10 = .byte 0x64#8 ∧
  decode 0b1110101011#10 = .reserved 0xAB#8

/-- R45: the word on the port, `op` in bits 9:8 and `data` in bits 7:0, as a number `op * 0x100 + data`. -/
def Obligations.CommandWordOnPins : Prop :=
  (∀ p : Pins,
    p.cmd.toNat = p.cmdOp.toNat * 0x100 + p.cmdData.toNat ∧
    p.cmd.extractLsb' 8 2 = p.cmdOp ∧ p.cmd.extractLsb' 0 8 = p.cmdData) ∧
  ∀ w : CmdWord, (Pins.command w).cmd = w ∧ (Pins.command w).cmdValid = true ∧ (Pins.command w).rst = false

/-! The CRC functions -/

/-- R15: one `crc_step`, bit by bit. -/
def Obligations.CrcStepBits : Prop :=
  ∀ a : Word,
    (crcStep a).getLsbD 15 = a.getLsbD 0 ∧
    (crcStep a).getLsbD 14 = a.getLsbD 15 ∧
    (crcStep a).getLsbD 13 = (a.getLsbD 14 ^^ a.getLsbD 0) ∧
    (∀ i, 1 ≤ i → i ≤ 12 → (crcStep a).getLsbD i = a.getLsbD (i + 1)) ∧
    (crcStep a).getLsbD 0 = (a.getLsbD 1 ^^ a.getLsbD 0)

/-- R66: `crc_step` and `crc_byte` are linear, and each is a bijection. -/
def Obligations.CrcLinearAndBijective : Prop :=
  (∀ a : Word, crcStep a = (a >>> 1) ^^^ (if a.getLsbD 0 then 0xA001#16 else 0#16)) ∧
  (∀ a b : Word, crcStep (a ^^^ b) = crcStep a ^^^ crcStep b) ∧
  crcStep 0#16 = 0#16 ∧
  (∀ (a1 a2 : Word) (d1 d2 : Byte), crcByte (a1 ^^^ a2) (d1 ^^^ d2) = crcByte a1 d1 ^^^ crcByte a2 d2) ∧
  crcByte 0#16 0#8 = 0#16 ∧
  Function.Bijective crcStep ∧
  (∀ a : Word, (crcStep a).getLsbD 15 = a.getLsbD 0) ∧
  ∀ d : Byte, Function.Bijective fun a => crcByte a d

/-- R67: the table form. -/
def Obligations.TableForm : Prop :=
  (∀ i : Byte, crcTable i = crcByte 0x0000#16 i) ∧
  (∀ (a : Word) (d : Byte),
    crcByte a d = (a.extractLsb' 8 8).setWidth 16 ^^^ crcTable (a.extractLsb' 0 8 ^^^ d)) ∧
  ∀ (a : Word) (d : Byte), crcByteByTable a d = crcByte a d

/-- 95_test_vectors.md §3: entries of the derived table T, the first row, the powers of two, and the last. -/
def Obligations.TableEntries : Prop :=
  [0x00, 0x01, 0x02, 0x03, 0x04, 0x05, 0x06, 0x07, 0x08, 0x09, 0x0A, 0x0B, 0x0C, 0x0D, 0x0E, 0x0F].map crcTable =
    [0x0000, 0xC0C1, 0xC181, 0x0140, 0xC301, 0x03C0, 0x0280, 0xC241,
     0xC601, 0x06C0, 0x0780, 0xC741, 0x0500, 0xC5C1, 0xC481, 0x0440] ∧
  [0x10, 0x20, 0x40, 0x80, 0xFE, 0xFF].map crcTable = [0xCC01, 0xD801, 0xF001, 0xA001, 0x8081, 0x4040]

/-- R68: the bit-serial form, input bits `d[0]` first. -/
def Obligations.BitSerialForm : Prop :=
  (∀ (a : Word) (b : Bool),
    crcBit a b = (a >>> 1) ^^^ (if a.getLsbD 0 ^^ b then 0xA001#16 else 0x0000#16)) ∧
  (∀ (a : Word) (d : Byte),
    crcByte a d =
      crcBit (crcBit (crcBit (crcBit (crcBit (crcBit (crcBit (crcBit a (d.getLsbD 0)) (d.getLsbD 1)) (d.getLsbD 2))
        (d.getLsbD 3)) (d.getLsbD 4)) (d.getLsbD 5)) (d.getLsbD 6)) (d.getLsbD 7)) ∧
  ∀ (a : Word) (d : Byte), crcByteBySerial a d = crcByte a d

/-- R69: the eight feedback bits are a function of `a[7:0] XOR d` alone, and `a[15:8]` only shifts down to bits 7..0. -/
def Obligations.FeedbackFromLowByte : Prop :=
  (∀ (a a' : Word) (d d' : Byte) (k : Nat), k < 8 → lowByte a ^^^ d = lowByte a' ^^^ d' →
    (crcSteps k (a ^^^ zext16 d)).getLsbD 0 = (crcSteps k (a' ^^^ zext16 d')).getLsbD 0) ∧
  ∀ (a : Word) (d : Byte), crcByte a d = zext16 (highByte a) ^^^ crcByte (zext16 (lowByte a)) d

/-- R72: absorbing the check bytes of the current value. -/
def Obligations.OwnCheckBytesAbsorbed : Prop :=
  ∀ c : Word,
    crcByte c (c.extractLsb' 0 8) = (c.extractLsb' 8 8).setWidth 16 ∧
    crcByte ((c.extractLsb' 8 8).setWidth 16) (c.extractLsb' 8 8) = 0x0000#16

/-- R73: a message and its check bytes, low byte first, leave the residue 0x0000, and so a
frame is found intact, by a host that feeds the block every byte of it too. -/
def Obligations.ResidueIsZero : Prop :=
  (∀ m : List Byte,
    crc16 (m ++ [(crc16 m).extractLsb' 0 8, (crc16 m).extractLsb' 8 8]) = 0x0000#16 ∧
    frameIntact (frameOf m) = true) ∧
  ∀ (s : State) (m : List Byte), s.Ready → s.script = (crcWords (frameOf m)).map .offer →
    ∃ t, runSteps (1 + (m.length + 2) * byteCycles s.bitsPerCycle) s = .next t ∧
      t.runOver = true ∧ t.crc = 0x0000#16

/-- R63's corner case: a zero byte changes every accumulator but the two fixed points of `crc_step`, 0x0000 and 0xC001. -/
def Obligations.ZeroByteFixedPoints : Prop :=
  (∀ a : Word, crcByte a 0x00#8 = a ↔ a = 0x0000#16 ∨ a = 0xC001#16) ∧
  ∀ a : Word, crcStep a = a ↔ a = 0x0000#16 ∨ a = 0xC001#16

/-- R63's corner case: the result depends on all 16 bits of `acc` and all 8 bits of `d`: no change of either alone leaves
the result as it was. -/
def Obligations.EveryBitMatters : Prop :=
  ∀ (a a' : Word) (d d' : Byte),
    (a ≠ a' → crcByte a d ≠ crcByte a' d) ∧ (d ≠ d' → crcByte a d ≠ crcByte a d')

/-- R59: the checksum of the empty message. -/
def Obligations.EmptyMessageChecksum : Prop := crc16 [] = 0xFFFF#16

/-- 95_test_vectors.md §2.5 and §2.6: checksums of some messages, the check value of "123456789" first, and a frame whose
check bytes are swapped. -/
def Obligations.MessageVectors : Prop :=
  crc16 [0x31, 0x32, 0x33, 0x34, 0x35, 0x36, 0x37, 0x38, 0x39] = 0x4B37#16 ∧
  crc16 [0x00] = 0x40BF#16 ∧
  crc16 [0x00, 0x00] = 0xB001#16 ∧
  crc16 [0xFF, 0xFF] = 0x0000#16 ∧
  crc16 [0x01, 0x02, 0x03, 0x04, 0x05, 0x06, 0x07, 0x08] = 0xCFB0#16 ∧
  crc16 [0x01, 0x03, 0x00, 0x00, 0x00, 0x0A] = 0xCDC5#16 ∧
  crc16 [0x01, 0x03, 0x00, 0x42, 0x00, 0x02, 0x1F, 0x64] = 0xD362#16

/-- R70: the request frame of the source, its checksum and its check bytes. -/
def Obligations.RequestFrame : Prop :=
  requestPayload 0x01#8 0x03#8 0x0042#16 0x0002#16 = [0x01, 0x03, 0x00, 0x42, 0x00, 0x02] ∧
  crc16 [0x01, 0x03, 0x00, 0x42, 0x00, 0x02] = 0x1F64#16 ∧
  checkBytes 0x1F64#16 = [0x64, 0x1F] ∧
  frameOf [0x01, 0x03, 0x00, 0x42, 0x00, 0x02] = [0x01, 0x03, 0x00, 0x42, 0x00, 0x02, 0x64, 0x1F]

/-! The commands: what each does when accepted, and that it completes in every state -/

/-- R61: NOP changes nothing, for every value of its data field; its word and its spelling; it takes one cycle, after which
the block is ready still and only the host's list and index have moved on. -/
def Obligations.NopDoesNothing : Prop :=
  (∀ (data : Byte) (s : State), exec (.nop data) s = .next s) ∧
  (∀ data : Byte, decode (0b00#2 ++ data) = .nop data) ∧
  parseLine ['n', 'o', 'p'] = .command .nop ∧ assembleLine .nop = some [0x000#10] ∧
  ∀ (s : State) (data : Byte) (rest : List Input),
    s.Ready → s.script = .edge (Pins.command (encode (.nop data))) :: rest →
      ∃ t, step s = .next t ∧ t = { s with script := rest, cmdIndex := s.cmdIndex + 1 } ∧ t.Ready

/-- R62: INIT writes 0xFFFF to `acc` and nothing else, for every value of its data field and every `acc`; it is idempotent;
its word and its spelling; it takes one cycle, after which the block is ready still. -/
def Obligations.InitStartsMessage : Prop :=
  (∀ (data : Byte) (s : State), exec (.init data) s = .next { s with acc := 0xFFFF#16 }) ∧
  (∀ (data data' : Byte) (s t : State), exec (.init data) s = .next t → exec (.init data') t = .next t) ∧
  (∀ data : Byte, decode (0b01#2 ++ data) = .init data) ∧
  parseLine ['i', 'n', 'i', 't'] = .command .init ∧ assembleLine .init = some [0x100#10] ∧
  ∀ (s : State) (data : Byte) (rest : List Input),
    s.Ready → s.script = .edge (Pins.command (encode (.init data))) :: rest →
      ∃ t, step s = .next t ∧ t.Ready ∧
        t = { s with script := rest, cmdIndex := s.cmdIndex + 1, acc := 0xFFFF#16 }

/-- The schedule of BYTE over its cycles (R64): the accepting edge, each later edge unless `rst = 1`, a reset that abandons
the byte, and the default P = 8. Two clauses are the model's, not R64's: `draws`, the model's own count of free values, moves
on by 1 at each of these edges (log 9), and a reset edge leaves the record of IllegalCommand (log 6, deduced from R88). -/
def Obligations.ByteSchedule : Prop :=
  (∀ (d : Byte) (s : State),
    exec (.byte d) s = .next { s with
      acc := crcSteps (stepsPerCycle s.bitsPerCycle) (s.acc ^^^ d.setWidth 16)
      cnt := BitVec.ofNat 3 (8 / stepsPerCycle s.bitsPerCycle - 1)
      draws := s.draws + 1 }) ∧
  (∀ (s : State) (p : Pins) (rest : List Input),
    s.resetDone = true → s.cnt ≠ 0#3 → s.script = .edge p :: rest →
      step s = .next (
        if p.rst then { s with script := rest, acc := 0xFFFF#16, err := false, cnt := 0#3 }
        else { s with
          script := rest
          acc := crcSteps (stepsPerCycle s.bitsPerCycle) s.acc
          cnt := s.cnt - 1#3
          draws := s.draws + 1 })) ∧
  (∀ (d : Byte) (s : State), s.bitsPerCycle = .eight →
    exec (.byte d) s = .next { s with acc := crcByte s.acc d, cnt := 0#3, draws := s.draws + 1 }) ∧
  [BitsPerCycle.one, .two, .four, .eight].map stepsPerCycle = [1, 2, 4, 8]

/-- Whatever P is, and whatever the port carries meanwhile, BYTE_CYCLES edges without reset absorb the byte (R21): `acc` is
`crc_byte(acc_before, d)` when `cnt` is 0 again. Three more fields move: the host's list (the model's, log 3), the host's index
by 1 (R16, log 5), and `draws`, the model's own count of free values, by BYTE_CYCLES (the model's choice, log 9). Every other
field is as it was, `err` and the record of IllegalCommand among them. -/
def Obligations.ByteResult : Prop :=
  ∀ (s : State) (d : Byte) (ps : List Pins) (rest : List Input),
    s.Ready → (∀ p ∈ ps, p.rst = false) → ps.length + 1 = byteCycles s.bitsPerCycle →
    s.script = .edge (Pins.command (encode (.byte d))) :: (ps.map .edge ++ rest) →
      runSteps (byteCycles s.bitsPerCycle) s = .next { s with
        acc := crcByte s.acc d
        cmdIndex := s.cmdIndex + 1
        script := rest
        draws := s.draws + byteCycles s.bitsPerCycle }

/-- A reserved word sets `err`, records the fault, and changes nothing else; and the block accepts later commands as before
(R88). R88 also keeps the record for the whole run, never cleared by a later step. That EVERY step of the model keeps it, a
reset edge and a loss of power among them, is the model's reading (log 6, deduced from R88): the spec does not say whether
either of them starts a new run, with nothing recorded. -/
def Obligations.ReservedRaisesIllegalCommand : Prop :=
  (∀ (data : Byte) (s : State), exec (.reserved data) s = .next { s with err := true, illegalCommand := true }) ∧
  (∀ s t : State, step s = .next t → s.illegalCommand = true → t.illegalCommand = true) ∧
  ∀ (s : State) (data : Byte) (p : Pins) (rest : List Input),
    s.Ready → p.rst = false → p.cmdValid = true →
    s.script = .edge (Pins.command (encode (.reserved data))) :: .edge p :: rest →
      ∃ t, step s = .next t ∧ t.Ready ∧
        step t = exec (decode p.cmd) { t with script := rest, cmdIndex := t.cmdIndex + 1 }

/-- R48: the operand of BYTE, and the data field that the other commands ignore. -/
def Obligations.OperandAssembly : Prop :=
  (∀ (a : Word) (d : Byte),
    xorOperand a d = a ^^^ d.setWidth 16 ∧
    highByte (xorOperand a d) = highByte a ∧ lowByte (xorOperand a d) = lowByte a ^^^ d) ∧
  (∀ w : CmdWord, w.extractLsb' 8 2 = 0b10#2 → decode w = .byte (w.extractLsb' 0 8)) ∧
  (∀ (data : Byte) (s : State),
    exec (.nop data) s = exec (.nop 0x00) s ∧ exec (.init data) s = exec (.init 0x00) s ∧
    exec (.reserved data) s = exec (.reserved 0x00) s) ∧
  nopWord = 0x000#10 ∧ initWord = 0x100#10

/-! The step -/

/-- R49: an accepted command runs. When the edge that comes accepts the word on the port, the step is `exec` of the command
the word decodes to, with the host's list moved on and its index advanced; the same for a word the host offers. -/
def Obligations.StepRunsAcceptedCommand : Prop :=
  (∀ (s : State) (p : Pins) (rest : List Input),
    s.resetDone = true → accepts p s = true → s.script = .edge p :: rest →
      step s = exec (decode p.cmd) { s with script := rest, cmdIndex := s.cmdIndex + 1 }) ∧
  ∀ (s : State) (w : CmdWord) (rest : List Input), s.Ready → s.script = .offer w :: rest →
    step s = exec (decode w) { s with script := rest, cmdIndex := s.cmdIndex + 1 }

/-- The clock-level step, whole, in the order of R55's cases. What R55 does not say is the model's: `draws`, the count of free
values, moves on by 1 at an edge of a BYTE (log 9), a reset edge leaves the record of IllegalCommand (log 6, deduced from
R88), an accepted command moves the host's index on by 1 (R16, log 5), and the host's list moves on (log 3). -/
def Obligations.ClockStep : Prop :=
  ∀ (s : State) (p : Pins) (rest : List Input), s.resetDone = true → s.script = .edge p :: rest →
    step s = .next (
      if p.rst = true then { s with script := rest, acc := 0xFFFF#16, err := false, cnt := 0#3 }
      else if s.cnt ≠ 0#3 then
        { s with
          script := rest
          acc := crcSteps (stepsPerCycle s.bitsPerCycle) s.acc
          cnt := s.cnt - 1#3
          draws := s.draws + 1 }
      else if p.cmdValid = true then
        if p.cmdOp = 0b00#2 then { s with script := rest, cmdIndex := s.cmdIndex + 1 }
        else if p.cmdOp = 0b01#2 then { s with script := rest, cmdIndex := s.cmdIndex + 1, acc := 0xFFFF#16 }
        else if p.cmdOp = 0b10#2 then
          { s with
            script := rest
            cmdIndex := s.cmdIndex + 1
            acc := crcSteps (stepsPerCycle s.bitsPerCycle) (s.acc ^^^ p.cmdData.setWidth 16)
            cnt := BitVec.ofNat 3 (byteCycles s.bitsPerCycle - 1)
            draws := s.draws + 1 }
        else { s with script := rest, cmdIndex := s.cmdIndex + 1, err := true, illegalCommand := true }
      else { s with script := rest })

/-- When a command is accepted, that the word sampled at that edge is the command, and that an edge at which none is
accepted is the same whatever the command port carries, and leaves the index (R49): a command in the busy window is lost as
if it had never been presented. Before the first reset edge the port has no effect at a reset edge, and presenting any
command is refused (log 7); of an idle edge there nothing more is said, since the registers are then unspecified (R23). -/
def Obligations.AcceptanceRule : Prop :=
  (∀ (s : State) (p : Pins) (rest : List Input), s.script = .edge p :: rest →
    (accepts p s = true ↔ p.rst = false ∧ p.cmdValid = true ∧ s.cmdReady = true)) ∧
  (∀ (s : State) (p : Pins) (rest : List Input),
    s.resetDone = true → accepts p s = true → s.script = .edge p :: rest →
      step s = exec (decode p.cmd) { s with script := rest, cmdIndex := s.cmdIndex + 1 }) ∧
  (∀ (s : State) (p p' : Pins) (rest : List Input),
    p'.rst = p.rst →
    ((s.resetDone = true ∧ accepts p s = false ∧ accepts p' s = false) ∨ p.rst = true ∨
      (s.resetDone = false ∧ p.cmdValid = true ∧ p'.cmdValid = true)) →
      step { s with script := .edge p' :: rest } = step { s with script := .edge p :: rest }) ∧
  ∀ (s t : State) (p : Pins) (rest : List Input),
    accepts p s = false → s.script = .edge p :: rest → step s = .next t → t.cmdIndex = s.cmdIndex

/-- An edge with `rst = 1` gives the reset values, whatever the state held, before the first reset edge too, and whatever the
port carries; between edges `rst` does nothing (R97, R22). That nothing else changes is in part the model's: the record of
IllegalCommand stays (log 6, deduced from R88), `resetDone` is set (log 14), the host's list moves on (log 3) and the model's
own `draws` stays (log 9). -/
def Obligations.ResetEdge : Prop :=
  (∀ (s : State) (p : Pins) (rest : List Input), p.rst = true → s.script = .edge p :: rest →
    step s = .next { s with script := rest, acc := 0xFFFF#16, err := false, cnt := 0#3, resetDone := true }) ∧
  ∀ (s : State) (p : Pins) (rest : List Input), s.script = .noEdge p :: rest →
    step s = .next { s with script := rest }

/-- While `rst = 1`, `cmd_ready = 0` and no command is accepted; one edge is enough; `crc` then shows 0xFFFF and `err` shows
0, and holding `rst` keeps the reset values (R99). That a further reset edge also leaves the fields that are not the block's
is the model's: the record (log 6), the index (log 5), `draws` (log 9) and `resetDone` (log 14). -/
def Obligations.ResetHeld : Prop :=
  ∀ (s : State) (p q : Pins) (rest : List Input), p.rst = true → q.rst = true →
    s.script = .edge p :: .edge q :: rest →
      s.cmdReady = false ∧ accepts p s = false ∧
      ∃ t u, step s = .next t ∧ t.acc = 0xFFFF#16 ∧ t.err = false ∧ t.cnt = 0#3 ∧
        t.crc = 0xFFFF#16 ∧ t.errPort = false ∧ t.cmdReady = false ∧ t.cmdIndex = s.cmdIndex ∧
        step t = .next u ∧ u = { t with script := rest }

/-- R100: at the first edge with `rst = 0` after a reset, `cmd_ready = 1` and a command presented is accepted. -/
def Obligations.ReadyAfterReset : Prop :=
  ∀ (s : State) (p q : Pins) (rest : List Input), p.rst = true → q.rst = false →
    s.script = .edge p :: .edge q :: rest →
      ∃ t, step s = .next t ∧ t.cnt = 0#3 ∧ t.cmdReady = true ∧
        (q.cmdValid = true → accepts q t = true ∧
          step t = exec (decode q.cmd) { t with script := rest, cmdIndex := t.cmdIndex + 1 })

/-- What State.reset is: R22's values, the spec's default of R9, and the model's own fields at the values of logs 3, 5, 6,
9 and 14. -/
def Obligations.ResetState : Prop :=
  State.reset.acc = 0xFFFF#16 ∧ State.reset.err = false ∧ State.reset.cnt = 0#3 ∧
  stepsPerCycle State.reset.bitsPerCycle = 8 ∧
  State.reset.resetDone = true ∧ State.reset.illegalCommand = false ∧ State.reset.cmdIndex = 0 ∧
  State.reset.script = [] ∧ State.reset.crc = 0xFFFF#16 ∧ State.reset.cmdReady = true

/-- R23 and log 7: before the first reset edge a command at an edge is refused, held or not; and R96, R101: lost power
brings the block there, and one reset edge out of it. That the record, the index and the parameter are then as they were is
the model's (logs 6 and 8). -/
def Obligations.BeforeTheFirstReset : Prop :=
  (∀ (s : State) (p : Pins) (rest : List Input),
    s.resetDone = false → p.rst = false → p.cmdValid = true → s.script = .edge p :: rest →
      step s = .refused .beforeReset) ∧
  (∀ (s : State) (w : CmdWord) (rest : List Input),
    s.resetDone = false → s.script = .offer w :: rest → step s = .refused .beforeReset) ∧
  ∀ (s : State) (p : Pins) (rest : List Input), p.rst = true → s.script = .powerLoss :: .edge p :: rest →
    ∃ t u, step s = .next t ∧ t.resetDone = false ∧ step t = .next u ∧
      u.Ready ∧ u.acc = 0xFFFF#16 ∧ u.err = false ∧ u.script = rest ∧
      u.illegalCommand = s.illegalCommand ∧ u.cmdIndex = s.cmdIndex ∧ u.bitsPerCycle = s.bitsPerCycle

/-- R77, R84, R91: no step faults; every command completes in every state; and out of reset every step gives a next
state. A step is refused only before the first reset edge, at an edge that presents a command. -/
def Obligations.StepNeverStops : Prop :=
  (∀ (i : Instr) (s : State), ∃ t, exec i s = .next t) ∧
  (∀ (s : State) (f : Fault), step s ≠ .fault f) ∧
  (∀ s : State, s.resetDone = true → ∃ t, step s = .next t) ∧
  ∀ (s : State) (r : Refusal), step s = .refused r →
    r = .beforeReset ∧ s.resetDone = false ∧ s.pins.rst = false ∧ s.pins.cmdValid = true

/-- R20 and R88 (log 6): the invariant of the registers is kept by every step, from every state that has it. -/
def Obligations.StepKeepsInv : Prop :=
  ∀ s t : State, s.Inv → step s = .next t → t.Inv

/-- R22: the invariant holds after reset. -/
def Obligations.ResetHasInv : Prop := State.reset.Inv

/-- R20: with P = 8 the block is never busy: `cnt` is 0 and stays 0 while the block is out of reset. -/
def Obligations.NeverBusyAtDefault : Prop :=
  (∀ s : State, s.Inv → s.resetDone = true → s.bitsPerCycle = .eight → s.cnt = 0#3) ∧
  ∀ s t : State, s.Ready → s.bitsPerCycle = .eight → step s = .next t → t.resetDone = true → t.cnt = 0#3

/-- R17, R83, R89: `err` rises only at an edge that accepts a reserved word, and falls only at a reset edge (or with the
power, R96). -/
def Obligations.ErrIsSticky : Prop :=
  (∀ s t : State, s.resetDone = true → step s = .next t → s.err = true → t.err = false →
    (∃ p rest, s.script = .edge p :: rest ∧ p.rst = true) ∨ ∃ rest, s.script = .powerLoss :: rest) ∧
  ∀ s t : State, s.resetDone = true → step s = .next t → t.resetDone = true → s.err = false → t.err = true →
    accepts s.pins s = true ∧ ∃ data, decode s.pins.cmd = .reserved data

/-- No command reads `err`, and it does not change what any command does (R17): of two states that differ in `err` only, one
steps if the other does. Where the block is then out of reset (a command, a busy edge, a reset edge from any state), the
next states differ in `err` at most. Where it is not (power lost, R96, or no reset edge yet, R23), `acc`, `err` and `cnt` are
unspecified and nothing is said of them; the fields that are not the block's come out equal, which is the model's own (logs 2,
3, 5, 6, 9 and 14). -/
def Obligations.ErrIsNotRead : Prop :=
  ∀ (s t : State) (b : Bool), step s = .next t →
    ∃ u, step { s with err := b } = .next u ∧
      u = { t with acc := u.acc, err := u.err, cnt := u.cnt } ∧
      (t.resetDone = true → u.acc = t.acc ∧ u.cnt = t.cnt)

/-- R14: out of reset, `acc` changes only at a reset edge, in a BYTE in progress, or at an edge that accepts an INIT or a
BYTE. -/
def Obligations.AccWriters : Prop :=
  ∀ s t : State, s.resetDone = true → step s = .next t → t.resetDone = true → t.acc ≠ s.acc →
    s.pins.rst = true ∨ s.cnt ≠ 0#3 ∨
      (accepts s.pins s = true ∧ ∃ d, decode s.pins.cmd = .init d ∨ decode s.pins.cmd = .byte d)

/-- R16: the host's index advances by exactly 1 for each accepted command and not otherwise; and no step changes the
parameter (R9). -/
def Obligations.IndexAndParameter : Prop :=
  ∀ s t : State, step s = .next t →
    t.bitsPerCycle = s.bitsPerCycle ∧
    t.cmdIndex =
      match s.script with
      | .edge p :: _ => if accepts p s then s.cmdIndex + 1 else s.cmdIndex
      | .offer w :: _ => if accepts (Pins.command w) s then s.cmdIndex + 1 else s.cmdIndex
      | _ => s.cmdIndex

/-- The output ports (R18, R24, R46): `crc` is `acc` while no BYTE is in progress, `crc_lo` and `crc_hi` are its bytes. The
clause that `crc_hi` above `crc_lo` is `crc` in EVERY state is the model's choice: in the busy window R24 and R107 let each
port show any value, and log 9 takes the two bytes from one free value. Before the first reset edge R23 leaves the ports
unspecified: what is said of them there is the model's too, over registers that hold free values (log 8). -/
def Obligations.OutputPorts : Prop :=
  ∀ s : State,
    (s.cmdReady = true ↔ s.cnt = 0#3 ∧ s.pins.rst = false) ∧
    (s.cnt = 0#3 → s.crc = s.acc ∧ s.crcLo = s.acc.extractLsb' 0 8 ∧ s.crcHi = s.acc.extractLsb' 8 8) ∧
    s.crcHi ++ s.crcLo = s.crc ∧
    s.errPort = s.err

/-! Runs of commands -/

/-- R56: the clock-level machine refines the transaction-level one: a host that offers words one after the other, each at
once, gets after exactly the cycles of R111 the left fold of `transact` over the words, and a block that is ready again; and what
`transact` is, op by op. -/
def Obligations.ClockLevelRefinesTransactions : Prop :=
  (∀ (a : Arch) (data : Byte),
    transact a (0b00#2 ++ data) = a ∧
    transact a (0b01#2 ++ data) = { a with acc := 0xFFFF#16 } ∧
    transact a (0b10#2 ++ data) = { a with acc := crcByte a.acc data } ∧
    transact a (0b11#2 ++ data) = { a with err := true, illegalCommand := true }) ∧
  ∀ (s : State) (ws : List CmdWord) (rest : List Input),
    s.Ready → (∀ x ∈ rest, x.patient = true) → s.script = ws.map .offer ++ rest →
      ∃ t, runSteps (runCycles s.bitsPerCycle ws) s = .next t ∧
        t.arch = ws.foldl transact s.arch ∧ t.Ready ∧ t.script = rest ∧
        t.cmdIndex = s.cmdIndex + ws.length ∧ t.bitsPerCycle = s.bitsPerCycle

/-- R57, with the cycle count of R111: `init; byte b1; ...; byte bn` leaves `acc = crc16(m)`, shown on `crc`, after
`1 + n * BYTE_CYCLES` cycles, whatever `acc` held; and without the INIT where `acc` is 0xFFFF, as right after reset. -/
def Obligations.MessageContract : Prop :=
  (∀ (s : State) (m : List Byte) (rest : List Input),
    s.Ready → (∀ x ∈ rest, x.patient = true) → s.script = (crcWords m).map .offer ++ rest →
      ∃ t, runSteps (1 + m.length * byteCycles s.bitsPerCycle) s = .next t ∧
        t.Ready ∧ t.script = rest ∧ t.acc = crc16 m ∧ t.crc = crc16 m ∧
        t.err = s.err ∧ t.illegalCommand = s.illegalCommand) ∧
  ∀ (s : State) (m : List Byte) (rest : List Input),
    s.Ready → s.acc = 0xFFFF#16 → (∀ x ∈ rest, x.patient = true) →
    s.script = (m.map byteWord).map .offer ++ rest →
      ∃ t, runSteps (m.length * byteCycles s.bitsPerCycle) s = .next t ∧
        t.Ready ∧ t.script = rest ∧ t.acc = crc16 m ∧ t.err = s.err

/-- R109: BYTEs accepted after a completed message without an INIT continue it, with no
indication; the result is then not that of the new bytes alone (unless the block happened to hold 0xFFFF). -/
def Obligations.MissingInitContinues : Prop :=
  ∀ (s : State) (before new : List Byte) (rest : List Input),
    s.Ready → s.acc = crc16 before → (∀ x ∈ rest, x.patient = true) →
    s.script = (new.map byteWord).map .offer ++ rest →
      ∃ t, runSteps (new.length * byteCycles s.bitsPerCycle) s = .next t ∧
        t.Ready ∧ t.script = rest ∧ t.acc = crc16 (before ++ new) ∧ t.err = s.err ∧
        (crc16 before ≠ crc16 [] → t.acc ≠ crc16 new)

/-- R58: the checksum depends on the message's bytes only: from any ready state, whatever P is, a host that offers the
message's words in order, with NOPs, idle cycles, waits and stopped clocks anywhere between them, ends with
`acc = crc16(m)`. -/
def Obligations.ChecksumIndependentOfTiming : Prop :=
  ∀ (s : State) (m : List Byte),
    s.Ready → (∀ x ∈ s.script, x.quiet = true) →
    (offeredWords s.script).filter (fun w => !isNopWord w) = crcWords m →
      ∃ k t, runSteps k s = .next t ∧ t.runOver = true ∧ t.Ready ∧ t.acc = crc16 m ∧ t.err = s.err

/-- R85: IllegalCommand is precise: `acc` is the value the legal commands give, the illegal words contributing nothing;
and `err` tells whether any was accepted (R87). -/
def Obligations.IllegalWordsLeftOut : Prop :=
  ∀ (s : State) (ws : List CmdWord) (rest : List Input),
    s.Ready → (∀ x ∈ rest, x.patient = true) → s.script = ws.map .offer ++ rest →
      ∃ t, runSteps (runCycles s.bitsPerCycle ws) s = .next t ∧ t.Ready ∧
        t.acc = ((ws.filter fun w => w.extractLsb' 8 2 != 0b11#2).foldl transact s.arch).acc ∧
        t.err = (s.err || ws.any fun w => w.extractLsb' 8 2 == 0b11#2)

/-- R71: a host that issues the request's bytes and copies `crc_lo`, `crc_hi` into bytes 6 and 7 sends the same eight
bytes each time, whatever the block did before. -/
def Obligations.RequestFrameEveryTime : Prop :=
  ∀ s : State, s.Ready →
    s.script = (crcWords [0x01, 0x03, 0x00, 0x42, 0x00, 0x02]).map .offer →
      ∃ t, runSteps (1 + 6 * byteCycles s.bitsPerCycle) s = .next t ∧ t.runOver = true ∧
        [0x01, 0x03, 0x00, 0x42, 0x00, 0x02] ++ [t.crcLo, t.crcHi] =
          [0x01, 0x03, 0x00, 0x42, 0x00, 0x02, 0x64, 0x1F]

/-! The assembler -/

/-- R53: what each line assembles to, and that an operand out of range refuses the line. -/
def Obligations.AssemblerWords : Prop :=
  assembleLine .nop = some [0x000#10] ∧
  assembleLine .init = some [0x100#10] ∧
  ∀ n : Nat,
    (n ≤ 255 → assembleLine (.byte n) = some [BitVec.ofNat 10 (0x200 + n)]) ∧
    (255 < n → assembleLine (.byte n) = none) ∧
    (n ≤ 1023 → assembleLine (.word n) = some [BitVec.ofNat 10 n]) ∧
    (1023 < n → assembleLine (.word n) = none)

/-- R54: the pseudo-commands: `crc` expands to `init` and a `byte` for each operand, in order; `wait` to no word. -/
def Obligations.PseudoCommands : Prop :=
  (∀ bs : List Nat, (∀ b ∈ bs, b ≤ 255) →
    assembleLine (.crc bs) = some (0x100#10 :: bs.map fun b => BitVec.ofNat 10 (0x200 + b)) ∧
    assembleLine (.crc bs) = assemble (.init :: bs.map .byte)) ∧
  (∀ bs : List Nat, (∃ b ∈ bs, 255 < b) → assembleLine (.crc bs) = none) ∧
  assembleLine .wait = some [] ∧
  ∀ bs : List Nat, lineInputs (.crc bs) = (assembleLine (.crc bs)).map (List.map .offer)
end

