-- ==== Sys2Proof/Laws/Crc.lean ====
section
/-!
SUPPORT. The small lemmas of the CRC functions.
-/

namespace Sys2Proof.Machine

theorem crcStep_of_low_bit_set {a : Word} (h : a[0] = true) : crcStep a = (a >>> 1) ^^^ 0xA001#16 := by
  simp [crcStep, h, crcPolyReflected]

theorem crcStep_of_low_bit_clear {a : Word} (h : a[0] = false) : crcStep a = a >>> 1 := by
  simp [crcStep, h]

@[simp] theorem crcSteps_zero (a : Word) : crcSteps 0 a = a := rfl

theorem crcSteps_succ (n : Nat) (a : Word) : crcSteps (n + 1) a = crcSteps n (crcStep a) := rfl

theorem crcSteps_add (m n : Nat) (a : Word) : crcSteps (m + n) a = crcSteps n (crcSteps m a) := by
  induction m generalizing a with
  | zero => simp
  | succ m ih => rw [Nat.succ_add, crcSteps_succ, crcSteps_succ, ih]

theorem crcByte_eq_steps (a : Word) (d : Byte) : crcByte a d = crcSteps 8 (a ^^^ zext16 d) := rfl

@[simp] theorem absorb_nil (a : Word) : absorb a [] = a := rfl

@[simp] theorem absorb_cons (a : Word) (d : Byte) (m : List Byte) : absorb a (d :: m) = absorb (crcByte a d) m := rfl

theorem absorb_append (a : Word) (m n : List Byte) : absorb a (m ++ n) = absorb (absorb a m) n :=
  List.foldl_append

/-- No final XOR (R8, R12). -/
theorem crc16_eq_absorb (m : List Byte) : crc16 m = absorb 0xFFFF#16 m := by
  simp [crc16, crcXorOut, crcInit]

end Sys2Proof.Machine
end

