-- ==== Sys2Proof/Laws/Ops.lean ====
section
/-!
SUPPORT. What each shared operation, each meaning and the clock edge do.
-/

namespace Sys2Proof.Machine

/-! One equation per operation: every field it writes. -/

theorem startMessage_eq (s : State) : startMessage s = { s with acc := 0xFFFF#16 } := rfl

theorem startByte_eq (d : Byte) (s : State) :
    startByte d s =
      { s with
        acc := crcSteps (stepsPerCycle s.bitsPerCycle) (s.acc ^^^ zext16 d)
        cnt := BitVec.ofNat 3 (byteCycles s.bitsPerCycle - 1)
        draws := s.draws + 1 } := rfl

theorem continueByte_eq (s : State) :
    continueByte s =
      { s with
        acc := crcSteps (stepsPerCycle s.bitsPerCycle) s.acc
        cnt := s.cnt - 1#3
        draws := s.draws + 1 } := rfl

theorem raiseIllegalCommand_eq (s : State) :
    raiseIllegalCommand s = { s with err := true, illegalCommand := true } := rfl

theorem applyReset_eq (s : State) :
    applyReset s = { s with acc := 0xFFFF#16, err := false, cnt := 0#3, resetDone := true } := rfl

theorem unspecify_eq (s : State) :
    unspecify s =
      { s with
        acc := Config.powerUpAcc s.draws s.acc s.err s.cnt
        err := Config.powerUpErr s.draws s.acc s.err s.cnt
        cnt := Config.powerUpCnt s.draws s.acc s.err s.cnt
        draws := s.draws + 1 } := rfl

theorem losePower_eq (s : State) : losePower s = { unspecify s with resetDone := false } := rfl

theorem noteAccepted_eq (s : State) : noteAccepted s = { s with cmdIndex := s.cmdIndex + 1 } := rfl

/-- `P * BYTE_CYCLES = 8` (R9). -/
theorem stepsPerCycle_mul_byteCycles (p : BitsPerCycle) : stepsPerCycle p * byteCycles p = 8 := by
  cases p <;> rfl

theorem byteCycles_pos (p : BitsPerCycle) : 0 < byteCycles p := by cases p <;> decide

theorem byteCycles_le (p : BitsPerCycle) : byteCycles p ≤ 8 := by cases p <;> decide

/-! The meanings. -/

/-- The state a command leaves. -/
theorem exec_nop (data : Byte) (s : State) : exec (.nop data) s = .next s := rfl

theorem exec_init (data : Byte) (s : State) : exec (.init data) s = .next (startMessage s) := rfl

theorem exec_byte (d : Byte) (s : State) : exec (.byte d) s = .next (startByte d s) := rfl

theorem exec_reserved (data : Byte) (s : State) : exec (.reserved data) s = .next (raiseIllegalCommand s) := rfl

/-! The clock edge, case by case in the priority of R82. -/

theorem accepts_iff (p : Pins) (s : State) :
    accepts p s = true ↔ p.rst = false ∧ p.cmdValid = true ∧ s.cnt = 0#3 := by
  simp [accepts, cmdReadyOf]; tauto

theorem clockEdge_reset {p : Pins} (s : State) (h : p.rst = true) : clockEdge p s = .next (applyReset s) := by
  simp [clockEdge, h]

theorem clockEdge_command_before_reset {p : Pins} {s : State} (h : p.rst = false) (hr : s.resetDone = false)
    (hv : p.cmdValid = true) : clockEdge p s = .refused .beforeReset := by
  simp [clockEdge, h, hr, hv]

theorem clockEdge_idle_before_reset {p : Pins} {s : State} (h : p.rst = false) (hr : s.resetDone = false)
    (hv : p.cmdValid = false) : clockEdge p s = .next (unspecify s) := by
  simp [clockEdge, h, hr, hv]

theorem clockEdge_busy {p : Pins} {s : State} (h : p.rst = false) (hr : s.resetDone = true) (hc : s.cnt ≠ 0#3) :
    clockEdge p s = .next (continueByte s) := by
  simp [clockEdge, h, hr, hc]

theorem clockEdge_accept {p : Pins} {s : State} (h : p.rst = false) (hr : s.resetDone = true) (hc : s.cnt = 0#3)
    (hv : p.cmdValid = true) : clockEdge p s = exec (decode p.cmd) (noteAccepted s) := by
  simp [clockEdge, h, hr, hc, hv]

theorem clockEdge_idle {p : Pins} {s : State} (h : p.rst = false) (hr : s.resetDone = true) (hc : s.cnt = 0#3)
    (hv : p.cmdValid = false) : clockEdge p s = .next s := by
  simp [clockEdge, h, hr, hc, hv]

/-- Everything a clock edge that answers a next state can have done. -/
theorem clockEdge_next_cases {p : Pins} {s t : State} (h : clockEdge p s = .next t) :
    (p.rst = true ∧ t = applyReset s) ∨
    (p.rst = false ∧ s.resetDone = false ∧ p.cmdValid = false ∧ t = unspecify s) ∨
    (p.rst = false ∧ s.resetDone = true ∧ s.cnt ≠ 0#3 ∧ t = continueByte s) ∨
    (p.rst = false ∧ s.resetDone = true ∧ s.cnt = 0#3 ∧ p.cmdValid = true ∧
      exec (decode p.cmd) (noteAccepted s) = .next t) ∨
    (p.rst = false ∧ s.resetDone = true ∧ s.cnt = 0#3 ∧ p.cmdValid = false ∧ t = s) := by
  cases hrst : p.rst with
  | true => exact .inl ⟨rfl, by simpa [clockEdge_reset s hrst] using h.symm⟩
  | false =>
    refine .inr ?_
    cases hr : s.resetDone with
    | false =>
      cases hv : p.cmdValid with
      | true => rw [clockEdge_command_before_reset hrst hr hv] at h; cases h
      | false => rw [clockEdge_idle_before_reset hrst hr hv] at h; cases h; exact .inl ⟨rfl, rfl, rfl, rfl⟩
    | true =>
      by_cases hc : s.cnt = 0#3
      · cases hv : p.cmdValid with
        | true =>
          rw [clockEdge_accept hrst hr hc hv] at h
          exact .inr (.inr (.inl ⟨rfl, rfl, hc, rfl, h⟩))
        | false =>
          rw [clockEdge_idle hrst hr hc hv] at h; cases h
          exact .inr (.inr (.inr ⟨rfl, rfl, hc, rfl, rfl⟩))
      · rw [clockEdge_busy hrst hr hc] at h; cases h
        exact .inr (.inl ⟨rfl, rfl, hc, rfl⟩)

end Sys2Proof.Machine
end

