-- ==== Sys2Proof/Laws/PerInstr.lean ====
section
/-!
SUPPORT. One lemma per constructor: the fields of a command's word (R45, R47).
-/

namespace Sys2Proof.Laws.WordFields

/-- The op code of a command (R47). -/
def opOf : Instr → BitVec 2
  | .nop _ => 0b00#2
  | .init _ => 0b01#2
  | .byte _ => 0b10#2
  | .reserved _ => 0b11#2

/-- The data field of a command (R45). -/
def dataOf : Instr → Byte
  | .nop data => data
  | .init data => data
  | .byte d => d
  | .reserved data => data

/-- The word's fields are the command's op code and data (R45, R47). -/
def Statement (i : Instr) : Prop := cmdOpOf (encode i) = opOf i ∧ cmdDataOf (encode i) = dataOf i

/-- A command word as a number (R45). -/
theorem toNat_cmdWord (op : BitVec 2) (data : Byte) : (cmdWord op data).toNat = op.toNat * 256 + data.toNat := by
  have hd : data.toNat < 2 ^ 8 := data.isLt
  rw [cmdWord, BitVec.toNat_append, ← Nat.shiftLeft_add_eq_or_of_lt hd, Nat.shiftLeft_eq]

/-- The fields of a word made of an op and a data field (R45). -/
theorem fields_of_cmdWord (op : BitVec 2) (data : Byte) :
    cmdOpOf (cmdWord op data) = op ∧ cmdDataOf (cmdWord op data) = data := by
  have ho : op.toNat < 4 := op.isLt
  have hd : data.toNat < 256 := data.isLt
  constructor <;> apply BitVec.eq_of_toNat_eq
  · rw [cmdOpOf, BitVec.extractLsb'_toNat, toNat_cmdWord, Nat.shiftRight_eq_div_pow]; omega
  · rw [cmdDataOf, BitVec.extractLsb'_toNat, toNat_cmdWord, Nat.shiftRight_eq_div_pow]; omega

theorem nop (data : Byte) : Statement (.nop data) := fields_of_cmdWord _ _
theorem init (data : Byte) : Statement (.init data) := fields_of_cmdWord _ _
theorem byte (d : Byte) : Statement (.byte d) := fields_of_cmdWord _ _
theorem reserved (data : Byte) : Statement (.reserved data) := fields_of_cmdWord _ _

end Sys2Proof.Laws.WordFields
end

