-- ==== Sys2Proof/Laws/State.lean ====
section
/-!
SUPPORT. What each update of State does to each field.
-/

namespace Sys2Proof.Machine

@[simp] theorem State.setAcc_acc (s : State) (v : Word) : (s.setAcc v).acc = v := rfl
@[simp] theorem State.setAcc_err (s : State) (v : Word) : (s.setAcc v).err = s.err := rfl
@[simp] theorem State.setAcc_cnt (s : State) (v : Word) : (s.setAcc v).cnt = s.cnt := rfl
@[simp] theorem State.setAcc_illegalCommand (s : State) (v : Word) : (s.setAcc v).illegalCommand = s.illegalCommand := rfl
@[simp] theorem State.setAcc_cmdIndex (s : State) (v : Word) : (s.setAcc v).cmdIndex = s.cmdIndex := rfl
@[simp] theorem State.setAcc_bitsPerCycle (s : State) (v : Word) : (s.setAcc v).bitsPerCycle = s.bitsPerCycle := rfl
@[simp] theorem State.setAcc_resetDone (s : State) (v : Word) : (s.setAcc v).resetDone = s.resetDone := rfl
@[simp] theorem State.setAcc_script (s : State) (v : Word) : (s.setAcc v).script = s.script := rfl
@[simp] theorem State.setAcc_draws (s : State) (v : Word) : (s.setAcc v).draws = s.draws := rfl

@[simp] theorem State.setErr_acc (s : State) (v : Bool) : (s.setErr v).acc = s.acc := rfl
@[simp] theorem State.setErr_err (s : State) (v : Bool) : (s.setErr v).err = v := rfl
@[simp] theorem State.setErr_cnt (s : State) (v : Bool) : (s.setErr v).cnt = s.cnt := rfl
@[simp] theorem State.setErr_illegalCommand (s : State) (v : Bool) : (s.setErr v).illegalCommand = s.illegalCommand := rfl
@[simp] theorem State.setErr_cmdIndex (s : State) (v : Bool) : (s.setErr v).cmdIndex = s.cmdIndex := rfl
@[simp] theorem State.setErr_bitsPerCycle (s : State) (v : Bool) : (s.setErr v).bitsPerCycle = s.bitsPerCycle := rfl
@[simp] theorem State.setErr_resetDone (s : State) (v : Bool) : (s.setErr v).resetDone = s.resetDone := rfl
@[simp] theorem State.setErr_script (s : State) (v : Bool) : (s.setErr v).script = s.script := rfl
@[simp] theorem State.setErr_draws (s : State) (v : Bool) : (s.setErr v).draws = s.draws := rfl

@[simp] theorem State.setCnt_acc (s : State) (v : BitVec 3) : (s.setCnt v).acc = s.acc := rfl
@[simp] theorem State.setCnt_err (s : State) (v : BitVec 3) : (s.setCnt v).err = s.err := rfl
@[simp] theorem State.setCnt_cnt (s : State) (v : BitVec 3) : (s.setCnt v).cnt = v := rfl
@[simp] theorem State.setCnt_illegalCommand (s : State) (v : BitVec 3) : (s.setCnt v).illegalCommand = s.illegalCommand := rfl
@[simp] theorem State.setCnt_cmdIndex (s : State) (v : BitVec 3) : (s.setCnt v).cmdIndex = s.cmdIndex := rfl
@[simp] theorem State.setCnt_bitsPerCycle (s : State) (v : BitVec 3) : (s.setCnt v).bitsPerCycle = s.bitsPerCycle := rfl
@[simp] theorem State.setCnt_resetDone (s : State) (v : BitVec 3) : (s.setCnt v).resetDone = s.resetDone := rfl
@[simp] theorem State.setCnt_script (s : State) (v : BitVec 3) : (s.setCnt v).script = s.script := rfl
@[simp] theorem State.setCnt_draws (s : State) (v : BitVec 3) : (s.setCnt v).draws = s.draws := rfl

@[simp] theorem State.setIllegalCommand_acc (s : State) (v : Bool) : (s.setIllegalCommand v).acc = s.acc := rfl
@[simp] theorem State.setIllegalCommand_err (s : State) (v : Bool) : (s.setIllegalCommand v).err = s.err := rfl
@[simp] theorem State.setIllegalCommand_cnt (s : State) (v : Bool) : (s.setIllegalCommand v).cnt = s.cnt := rfl
@[simp] theorem State.setIllegalCommand_illegalCommand (s : State) (v : Bool) : (s.setIllegalCommand v).illegalCommand = v := rfl
@[simp] theorem State.setIllegalCommand_cmdIndex (s : State) (v : Bool) : (s.setIllegalCommand v).cmdIndex = s.cmdIndex := rfl
@[simp] theorem State.setIllegalCommand_bitsPerCycle (s : State) (v : Bool) : (s.setIllegalCommand v).bitsPerCycle = s.bitsPerCycle := rfl
@[simp] theorem State.setIllegalCommand_resetDone (s : State) (v : Bool) : (s.setIllegalCommand v).resetDone = s.resetDone := rfl
@[simp] theorem State.setIllegalCommand_script (s : State) (v : Bool) : (s.setIllegalCommand v).script = s.script := rfl
@[simp] theorem State.setIllegalCommand_draws (s : State) (v : Bool) : (s.setIllegalCommand v).draws = s.draws := rfl

@[simp] theorem State.setCmdIndex_acc (s : State) (v : Nat) : (s.setCmdIndex v).acc = s.acc := rfl
@[simp] theorem State.setCmdIndex_err (s : State) (v : Nat) : (s.setCmdIndex v).err = s.err := rfl
@[simp] theorem State.setCmdIndex_cnt (s : State) (v : Nat) : (s.setCmdIndex v).cnt = s.cnt := rfl
@[simp] theorem State.setCmdIndex_illegalCommand (s : State) (v : Nat) : (s.setCmdIndex v).illegalCommand = s.illegalCommand := rfl
@[simp] theorem State.setCmdIndex_cmdIndex (s : State) (v : Nat) : (s.setCmdIndex v).cmdIndex = v := rfl
@[simp] theorem State.setCmdIndex_bitsPerCycle (s : State) (v : Nat) : (s.setCmdIndex v).bitsPerCycle = s.bitsPerCycle := rfl
@[simp] theorem State.setCmdIndex_resetDone (s : State) (v : Nat) : (s.setCmdIndex v).resetDone = s.resetDone := rfl
@[simp] theorem State.setCmdIndex_script (s : State) (v : Nat) : (s.setCmdIndex v).script = s.script := rfl
@[simp] theorem State.setCmdIndex_draws (s : State) (v : Nat) : (s.setCmdIndex v).draws = s.draws := rfl

@[simp] theorem State.setResetDone_acc (s : State) (v : Bool) : (s.setResetDone v).acc = s.acc := rfl
@[simp] theorem State.setResetDone_err (s : State) (v : Bool) : (s.setResetDone v).err = s.err := rfl
@[simp] theorem State.setResetDone_cnt (s : State) (v : Bool) : (s.setResetDone v).cnt = s.cnt := rfl
@[simp] theorem State.setResetDone_illegalCommand (s : State) (v : Bool) : (s.setResetDone v).illegalCommand = s.illegalCommand := rfl
@[simp] theorem State.setResetDone_cmdIndex (s : State) (v : Bool) : (s.setResetDone v).cmdIndex = s.cmdIndex := rfl
@[simp] theorem State.setResetDone_bitsPerCycle (s : State) (v : Bool) : (s.setResetDone v).bitsPerCycle = s.bitsPerCycle := rfl
@[simp] theorem State.setResetDone_resetDone (s : State) (v : Bool) : (s.setResetDone v).resetDone = v := rfl
@[simp] theorem State.setResetDone_script (s : State) (v : Bool) : (s.setResetDone v).script = s.script := rfl
@[simp] theorem State.setResetDone_draws (s : State) (v : Bool) : (s.setResetDone v).draws = s.draws := rfl

@[simp] theorem State.setScript_acc (s : State) (v : List Input) : (s.setScript v).acc = s.acc := rfl
@[simp] theorem State.setScript_err (s : State) (v : List Input) : (s.setScript v).err = s.err := rfl
@[simp] theorem State.setScript_cnt (s : State) (v : List Input) : (s.setScript v).cnt = s.cnt := rfl
@[simp] theorem State.setScript_illegalCommand (s : State) (v : List Input) : (s.setScript v).illegalCommand = s.illegalCommand := rfl
@[simp] theorem State.setScript_cmdIndex (s : State) (v : List Input) : (s.setScript v).cmdIndex = s.cmdIndex := rfl
@[simp] theorem State.setScript_bitsPerCycle (s : State) (v : List Input) : (s.setScript v).bitsPerCycle = s.bitsPerCycle := rfl
@[simp] theorem State.setScript_resetDone (s : State) (v : List Input) : (s.setScript v).resetDone = s.resetDone := rfl
@[simp] theorem State.setScript_script (s : State) (v : List Input) : (s.setScript v).script = v := rfl
@[simp] theorem State.setScript_draws (s : State) (v : List Input) : (s.setScript v).draws = s.draws := rfl

@[simp] theorem State.setDraws_acc (s : State) (v : Nat) : (s.setDraws v).acc = s.acc := rfl
@[simp] theorem State.setDraws_err (s : State) (v : Nat) : (s.setDraws v).err = s.err := rfl
@[simp] theorem State.setDraws_cnt (s : State) (v : Nat) : (s.setDraws v).cnt = s.cnt := rfl
@[simp] theorem State.setDraws_illegalCommand (s : State) (v : Nat) : (s.setDraws v).illegalCommand = s.illegalCommand := rfl
@[simp] theorem State.setDraws_cmdIndex (s : State) (v : Nat) : (s.setDraws v).cmdIndex = s.cmdIndex := rfl
@[simp] theorem State.setDraws_bitsPerCycle (s : State) (v : Nat) : (s.setDraws v).bitsPerCycle = s.bitsPerCycle := rfl
@[simp] theorem State.setDraws_resetDone (s : State) (v : Nat) : (s.setDraws v).resetDone = s.resetDone := rfl
@[simp] theorem State.setDraws_script (s : State) (v : Nat) : (s.setDraws v).script = s.script := rfl
@[simp] theorem State.setDraws_draws (s : State) (v : Nat) : (s.setDraws v).draws = v := rfl

end Sys2Proof.Machine
end

