-- ==== Sys2Proof/Laws/Step.lean ====
section
/-!
SUPPORT. What a step does, by the host's next input.
-/

namespace Sys2Proof.Machine

theorem pins_of_nil {s : State} (h : s.script = []) : s.pins = Pins.idle := by
  simp [State.pins, h]

theorem pins_of_cons {s : State} {x : Input} {rest : List Input} (h : s.script = x :: rest) : s.pins = x.pins := by
  simp [State.pins, h]

theorem step_nil {s : State} (h : s.script = []) : step s = clockEdge Pins.idle s := by
  simp [step, advance, h]

theorem step_edge {s : State} {p : Pins} {rest : List Input} (h : s.script = .edge p :: rest) :
    step s = clockEdge p (s.setScript rest) := by
  simp [step, advance, h]

theorem step_noEdge {s : State} {p : Pins} {rest : List Input} (h : s.script = .noEdge p :: rest) :
    step s = .next (s.setScript rest) := by
  simp [step, advance, h]

theorem step_offer_accepted {s : State} {w : CmdWord} {rest : List Input} (h : s.script = .offer w :: rest)
    (ha : accepts (Pins.command w) s = true) : step s = clockEdge (Pins.command w) (s.setScript rest) := by
  simp [step, advance, h, ha]

theorem step_offer_held {s : State} {w : CmdWord} {rest : List Input} (h : s.script = .offer w :: rest)
    (ha : accepts (Pins.command w) s = false) : step s = clockEdge (Pins.command w) s := by
  simp [step, advance, h, ha]

theorem step_wait_over {s : State} {rest : List Input} (h : s.script = .wait :: rest) (hr : s.cmdReady = true) :
    step s = .next (s.setScript rest) := by
  simp [step, advance, h, hr]

theorem step_wait_busy {s : State} {rest : List Input} (h : s.script = .wait :: rest) (hr : s.cmdReady = false) :
    step s = clockEdge Pins.idle s := by
  simp [step, advance, h, hr]

theorem step_powerLoss {s : State} {rest : List Input} (h : s.script = .powerLoss :: rest) :
    step s = .next (losePower (s.setScript rest)) := by
  simp [step, advance, h]

/-- A step is a clock edge at the pins of the host's next input, or no edge, or the loss of power. `r` is what is left of
the host's list. -/
theorem step_cases (s : State) :
    (∃ r, step s = clockEdge s.pins (s.setScript r)) ∨
    (∃ r, step s = .next (s.setScript r)) ∨
    (∃ r, s.script = .powerLoss :: r ∧ step s = .next (losePower (s.setScript r))) := by
  match h : s.script with
  | [] => exact .inl ⟨s.script, by rw [step_nil h, pins_of_nil h]; rfl⟩
  | .edge p :: rest => exact .inl ⟨rest, by rw [step_edge h, pins_of_cons h]; rfl⟩
  | .noEdge p :: rest => exact .inr (.inl ⟨rest, step_noEdge h⟩)
  | .offer w :: rest =>
    refine .inl ?_
    cases ha : accepts (Pins.command w) s with
    | true => exact ⟨rest, by rw [step_offer_accepted h ha, pins_of_cons h]; rfl⟩
    | false => exact ⟨s.script, by rw [step_offer_held h ha, pins_of_cons h]; rfl⟩
  | .wait :: rest =>
    cases hr : s.cmdReady with
    | true => exact .inr (.inl ⟨rest, step_wait_over h hr⟩)
    | false => exact .inl ⟨s.script, by rw [step_wait_busy h hr, pins_of_cons h]; rfl⟩
  | .powerLoss :: rest => exact .inr (.inr ⟨rest, rfl, step_powerLoss h⟩)

end Sys2Proof.Machine
end

