-- ==== Sys2Proof/Laws/Run.lean ====
section
/-!
SUPPORT. Runs of several steps, taken apart.
-/

namespace Sys2Proof.Machine

@[simp] theorem runSteps_zero (s : State) : runSteps 0 s = .next s := rfl

/-- A step that answers a next state, then the rest of the run. -/
theorem runSteps_succ_of_step {s t : State} (k : Nat) (h : step s = .next t) :
    runSteps (k + 1) s = runSteps k t := by
  simp [runSteps, h]

/-- A run, then another from where it ended. -/
theorem runSteps_add {s t : State} {j : Nat} (k : Nat) (h : runSteps j s = .next t) :
    runSteps (j + k) s = runSteps k t := by
  induction j generalizing s with
  | zero => cases h; rw [Nat.zero_add]
  | succ j ih =>
    cases hs : step s with
    | next u =>
      rw [runSteps_succ_of_step j hs] at h
      rw [Nat.succ_add, runSteps_succ_of_step _ hs]
      exact ih h
    | fault f => cases f
    | refused r => simp [runSteps, hs] at h

/-- A run is a run of the machine behind Host/Core.lean. -/
theorem coreRun_eq_runSteps (k : Nat) (s : State) : Host.Core.run Sys2Proof.core k s = runSteps k s := by
  induction k generalizing s with
  | zero => rfl
  | succ k ih =>
    cases h : step s with
    | next t =>
      have h' : Host.Core.step Sys2Proof.core s = .next t := h
      simp only [Host.Core.run, h', runSteps, h]
      exact ih t
    | fault f => cases f
    | refused r =>
      have h' : Host.Core.step Sys2Proof.core s = .refused r := h
      simp only [Host.Core.run, h', runSteps, h]
      rfl

end Sys2Proof.Machine
end

