-- ==== Sys2Proof/Tests/Slice0.lean ====
section
/-!
SUPPORT. Tests on fixed values, each expected value taken from 95_test_vectors.md or a rule's example (its id stands beside
it), and witnesses: for each statement with hypotheses, values that meet them together.
-/

namespace Sys2Proof.Tests

open Sys2Proof.Machine

/-- A block out of reset with these registers and this parameter, and what the host does next. -/
def block (p : BitsPerCycle) (acc : Word) (err : Bool) (cnt : BitVec 3) (script : List Input) : State :=
  { State.reset with acc := acc, err := err, illegalCommand := err, cnt := cnt, bitsPerCycle := p, script := script }

/-- The same block before its first reset edge. -/
def unreset (script : List Input) : State :=
  { State.reset with resetDone := false, script := script }

/-- The `acc`, `err`, `cnt` and fault record of a next state. -/
def registers : Host.Outcome State Fault Refusal → Option (Word × Bool × BitVec 3 × Bool)
  | .next t => some (t.acc, t.err, t.cnt, t.illegalCommand)
  | .fault _ => none
  | .refused _ => none

/-! WellFormed: an ill-formed line for each check, and the last value each accepts (R53). -/

theorem test_byte_operand_256_refused : (AsmLine.byte 256).wellFormed = false := by decide
theorem test_byte_operand_255_accepted : (AsmLine.byte 255).wellFormed = true := by decide
theorem test_word_operand_1024_refused : (AsmLine.word 1024).wellFormed = false := by decide
theorem test_word_operand_1023_accepted : (AsmLine.word 1023).wellFormed = true := by decide
theorem test_crc_operand_256_refused : (AsmLine.crc [1, 256]).wellFormed = false := by decide

/-! Decoding: words written out from R45 and R47, and a number that is no word (R52). -/

theorem test_decode_nop_data_A5 : decode 0b0010100101#10 = .nop 0xA5 := by decide
theorem test_decode_init_data_FF : decode 0b0111111111#10 = .init 0xFF := by decide
theorem test_decode_byte_42 : decode 0b1001000010#10 = .byte 0x42 := by decide
theorem test_decode_reserved_AB : decode 0b1110101011#10 = .reserved 0xAB := by decide
theorem test_table_word_byte_01 : decodeTableWord 16 0x201 = some (.byte 0x01) := by decide
theorem test_table_word_1024_rejected : decodeTableWord 16 0x400 = none := by decide

/-! The CRC functions: V-S1 to V-S11, V-B1 to V-B13. -/

theorem test_crcStep_vectors :
    [0x0000, 0x0001, 0x0002, 0x0003, 0x8000, 0x2000, 0xFFFF, 0xFFFE, 0xA001, 0xC001, 0x4B37].map crcStep =
      [0x0000, 0xA001, 0x0001, 0xA000, 0x4000, 0x1000, 0xDFFE, 0x7FFF, 0xF001, 0xC001, 0x859A] := by decide +kernel

theorem test_crcByte_vectors :
    [(0xFFFF, 0x01), (0xFFFF, 0x00), (0xFFFF, 0xFF), (0xC001, 0x00), (0x0000, 0x80), (0x1234, 0x34), (0xABCD, 0xEF),
      (0x00FF, 0xFF), (0xFF00, 0x00), (0x1F64, 0x01)].map (fun x : Word × Byte => crcByte x.1 x.2) =
      [0x807E, 0x40BF, 0x00FF, 0xC001, 0xA001, 0x0012, 0x192B, 0x0000, 0x00FF, 0x2BDF] := by decide +kernel

/-- V-M11. -/
theorem test_crc16_eight_bytes :
    crc16 [0x01, 0x02, 0x03, 0x04, 0x05, 0x06, 0x07, 0x08] = 0xCFB0#16 := by decide +kernel

/-- §3, T[0x55] and T[0xAA]. -/
theorem test_table_entries : crcTable 0x55 = 0x3FC0#16 ∧ crcTable 0xAA = 0x7F80#16 := by decide +kernel

/-- V-Z1 and V-Z3: the request frame is intact, with its check bytes swapped it is not. -/
theorem test_frameIntact :
    frameIntact [0x01, 0x03, 0x00, 0x42, 0x00, 0x02, 0x64, 0x1F] = true ∧
    frameIntact [0x01, 0x03, 0x00, 0x42, 0x00, 0x02, 0x1F, 0x64] = false := by decide +kernel

/-! One step each. -/

/-- V-N2: NOP with data 0xA5. -/
theorem test_nop : registers (exec (.nop 0xA5) (block .eight 0x1F64 false 0 [])) = some (0x1F64, false, 0, false) := by
  decide +kernel

/-- V-I3: INIT with data 0xFF does not clear `err`. -/
theorem test_init : registers (exec (.init 0xFF) (block .eight 0x1234 true 0 [])) = some (0xFFFF, true, 0, true) := by
  decide +kernel

/-- V-B1. -/
theorem test_byte : registers (exec (.byte 0x01) (block .eight 0xFFFF false 0 [])) = some (0x807E, false, 0, false) := by
  decide +kernel

/-- §2.4, the row P = 1, after edge e. -/
theorem test_byte_serial :
    registers (exec (.byte 0x01) (block .one 0xFFFF false 0 [])) = some (0x7FFF, false, 7, false) := by decide +kernel

/-- V-E1. -/
theorem test_reserved :
    registers (exec (.reserved 0x00) (block .eight 0x1F64 false 0 [])) = some (0x1F64, true, 0, true) := by
  decide +kernel

/-- V-E2: `err` stays 1. -/
theorem test_reserved_again :
    registers (exec (.reserved 0xAB) (block .eight 0x2140 true 0 [])) = some (0x2140, true, 0, true) := by
  decide +kernel

/-- P5, edge 2: BYTE 0x01 with P = 2. -/
theorem test_P5_edge_2 :
    registers (step (block .two 0xFFFF false 0 [.edge ⟨false, true, 2, 0x01⟩])) = some (0x9FFE, false, 3, false) := by
  decide +kernel

/-- P5, edge 3: busy; the NOP on the port is not accepted. -/
theorem test_P5_edge_3 :
    registers (step (block .two 0x9FFE false 3 [.edge ⟨false, true, 0, 0x00⟩])) = some (0x87FE, false, 2, false) := by
  decide +kernel

/-- P5, edge 5: the last cycle. -/
theorem test_P5_edge_5 :
    registers (step (block .two 0x81FE false 1 [.offer 0x000])) = some (0x807E, false, 0, false) := by decide +kernel

/-- R82: a reserved word in the busy window raises nothing. -/
theorem test_reserved_while_busy :
    registers (step (block .four 0x87FE false 1 [.edge ⟨false, true, 3, 0x00⟩])) = some (0x807E, false, 0, false) := by
  decide +kernel

/-- R97, R98: reset abandons a byte, and wins over the command on the port; the record stays. -/
theorem test_reset_edge :
    registers (step (block .two 0x9FFE true 3 [.edge ⟨true, true, 2, 0x55⟩])) = some (0xFFFF, false, 0, true) := by
  decide +kernel

/-- R23: a command before the first reset edge is refused. -/
theorem test_command_before_reset : step (unreset [.edge ⟨false, true, 1, 0x00⟩]) = .refused .beforeReset := rfl

/-- R44, R97: `rst` between edges does nothing. -/
theorem test_no_edge :
    registers (step (block .two 0x9FFE true 3 [.noEdge ⟨true, true, 1, 0x00⟩])) = some (0x9FFE, true, 3, true) := by
  decide +kernel

/-- R18, R24: the ports of a ready block. -/
theorem test_ports :
    (block .eight 0x1F64 false 0 []).crcLo = 0x64#8 ∧ (block .eight 0x1F64 false 0 []).crcHi = 0x1F#8 ∧
    (block .eight 0x1F64 false 0 []).cmdReady = true ∧
    (block .two 0x1F64 false 1 []).cmdReady = false ∧
    (block .eight 0x1F64 false 0 [.edge Pins.reset]).cmdReady = false := by decide +kernel

/-- The word after reset runs at the very next step. -/
theorem test_withFetchWord : registers (step (State.reset.withFetchWord 16 0x201)) = some (0x807E, false, 0, false) := by
  decide +kernel

/-! The assembler's text (R53, R54). -/

/-- `byte 0x1F ; x`. -/
theorem test_parse_byte_hex :
    parseLine [' ', 'b', 'y', 't', 'e', ' ', '0', 'x', '1', 'F', ' ', ';', ' ', 'x'] = .command (.byte 31) := by decide +kernel
/-- `byte 255`. -/
theorem test_parse_byte_decimal : parseLine ['b', 'y', 't', 'e', ' ', '2', '5', '5'] = .command (.byte 255) := by
  decide +kernel
/-- `.word 0x3AB`. -/
theorem test_parse_word : parseLine ['.', 'w', 'o', 'r', 'd', ' ', '0', 'x', '3', 'A', 'B'] = .command (.word 0x3AB) := by
  decide +kernel
/-- `crc 0x01, 3`. -/
theorem test_parse_crc :
    parseLine ['c', 'r', 'c', ' ', '0', 'x', '0', '1', ',', ' ', '3'] = .command (.crc [1, 3]) := by decide +kernel
theorem test_parse_crc_of_nothing : parseLine ['c', 'r', 'c'] = .command (.crc []) := by decide +kernel
theorem test_parse_wait : parseLine ['w', 'a', 'i', 't'] = .command .wait := by decide +kernel
theorem test_parse_comment : parseLine [' ', ';', ' ', 'n', 'o', 'p'] = .blank := by decide +kernel
/-- Mnemonics are lower case. -/
theorem test_parse_upper_case_refused : parseLine ['N', 'O', 'P'] = .refused := by decide +kernel
/-- P4's words. -/
theorem test_assemble_P4 :
    assemble [.init, .byte 0x01, .word 0x3AB, .byte 0x03, .init] =
      some [0x100, 0x201, 0x3AB, 0x203, 0x100] := by decide +kernel

/-! Witnesses. -/

/-- DecodeByRange: both ends of each range. -/
theorem witness_DecodeByRange :
    (0x000#10).toNat ≤ 0x0FF ∧ (0x0FF#10).toNat ≤ 0x0FF ∧
    (0x100 ≤ (0x100#10).toNat ∧ (0x100#10).toNat ≤ 0x1FF) ∧ (0x100 ≤ (0x1FF#10).toNat ∧ (0x1FF#10).toNat ≤ 0x1FF) ∧
    (0x200 ≤ (0x200#10).toNat ∧ (0x200#10).toNat ≤ 0x2FF) ∧ (0x200 ≤ (0x2FF#10).toNat ∧ (0x2FF#10).toNat ≤ 0x2FF) ∧
    0x300 ≤ (0x300#10).toNat ∧ 0x300 ≤ (0x3FF#10).toNat := by decide

/-- CrcStepBits: the ends of its range of bits, on 0xA001 (V-S9: the next value is 0xF001). -/
theorem witness_CrcStepBits :
    (0xF001#16).getLsbD 1 = (0xA001#16).getLsbD 2 ∧ (0xF001#16).getLsbD 12 = (0xA001#16).getLsbD 13 := by decide

/-- FeedbackFromLowByte: two accumulators and bytes with one low-byte sum, first and last step. -/
theorem witness_FeedbackFromLowByte :
    0 < 8 ∧ 7 < 8 ∧ lowByte 0xAB0F#16 ^^^ 0xF0#8 = lowByte 0x12FF#16 ^^^ 0x00#8 := by decide

/-- EveryBitMatters: accumulators and bytes that differ in one bit. -/
theorem witness_EveryBitMatters : 0x8000#16 ≠ 0x0000#16 ∧ 0x80#8 ≠ 0x00#8 := by decide

/-- NopDoesNothing and InitStartsMessage: a ready block and their edge. -/
theorem witness_NopDoesNothing :
    (block .two 0x1F64 true 0 [.edge (Pins.command (encode (.nop 0xA5)))]).Ready ∧
    (block .two 0x1F64 true 0 [.edge (Pins.command (encode (.init 0xA5)))]).Ready := by decide

theorem witness_InitStartsMessage :
    exec (.init 0xFF) (block .two 0x1234 true 0 []) = .next (block .two 0xFFFF true 0 []) := rfl

/-- ByteSchedule: a busy block at an edge with and without reset; the default. -/
theorem witness_ByteSchedule :
    (block .two 0x9FFE false 3 [.edge Pins.reset]).resetDone = true ∧
    (block .two 0x9FFE false 3 [.edge Pins.reset]).cnt ≠ 0#3 ∧
    (block .two 0x9FFE false 3 [.edge Pins.idle]).cnt ≠ 0#3 ∧
    State.reset.bitsPerCycle = .eight := by decide

/-- ByteResult: P = 2 with a reserved word on the port meanwhile, and P = 8 with no cycle left. -/
theorem witness_ByteResult :
    ([⟨false, true, 3, 0xFF⟩, Pins.idle, ⟨false, true, 1, 0⟩] : List Pins).length + 1 = byteCycles .two ∧
    (∀ p ∈ ([⟨false, true, 3, 0xFF⟩, Pins.idle, ⟨false, true, 1, 0⟩] : List Pins), p.rst = false) ∧
    ([] : List Pins).length + 1 = byteCycles .eight ∧
    (block .two 0xFFFF false 0 (.edge (Pins.command (encode (.byte 0x01))) ::
      (([⟨false, true, 3, 0xFF⟩, Pins.idle, ⟨false, true, 1, 0⟩] : List Pins).map .edge ++ []))).Ready := by decide

/-- ReservedRaisesIllegalCommand: a step of a block whose record is set, and a reserved word before an INIT. -/
theorem witness_ReservedRaisesIllegalCommand :
    step (block .eight 0x2140 true 0 []) = .next (block .eight 0x2140 true 0 []) ∧
    (block .eight 0x2140 true 0 []).illegalCommand = true ∧
    (block .eight 0x2140 false 0
      [.edge (Pins.command (encode (.reserved 0xAB))), .edge (Pins.command 0x100#10)]).Ready ∧
    (Pins.command 0x100#10).rst = false ∧ (Pins.command 0x100#10).cmdValid = true :=
  ⟨rfl, rfl, by decide, rfl, rfl⟩

/-- OperandAssembly: the first and the last BYTE word. -/
theorem witness_OperandAssembly :
    (0x200#10).extractLsb' 8 2 = 0b10#2 ∧ (0x2FF#10).extractLsb' 8 2 = 0b10#2 := by decide

/-- StepRunsAcceptedCommand and AcceptanceRule: an edge that accepts, an offer that is ready. -/
theorem witness_StepRunsAcceptedCommand :
    (block .two 0x1F64 false 0 [.edge (Pins.command 0x2FF#10)]).resetDone = true ∧
    accepts (Pins.command 0x2FF#10) (block .two 0x1F64 false 0 [.edge (Pins.command 0x2FF#10)]) = true ∧
    (block .two 0x1F64 false 0 [.offer 0x2FF#10]).Ready := by decide

/-- ClockStep: a block out of reset for each case, reset first, then busy, then each op, then nothing. -/
theorem witness_ClockStep :
    (block .one 0x1F64 false 7 [.edge Pins.reset]).resetDone = true ∧ Pins.reset.rst = true ∧
    (block .one 0x1F64 false 7 [.edge Pins.idle]).cnt ≠ 0#3 ∧
    [0x0A5#10, 0x100#10, 0x2FF#10, 0x3AB#10].map (fun w => (Pins.command w).cmdOp) = [0b00, 0b01, 0b10, 0b11] ∧
    (block .one 0x1F64 false 0 [.edge (Pins.command 0x3AB#10)]).cnt = 0#3 ∧ Pins.idle.cmdValid = false := by decide

/-- AcceptanceRule: edges that accept nothing: busy, with and without a command presented; a reset edge; two commands before
the first reset edge. -/
theorem witness_AcceptanceRule :
    (accepts (Pins.command 0x300#10) (block .two 0x9FFE false 3 []) = false ∧
      accepts Pins.idle (block .two 0x9FFE false 3 []) = false ∧
      Pins.idle.rst = (Pins.command 0x300#10).rst ∧ (block .two 0x9FFE false 3 []).resetDone = true) ∧
    (Pins.reset.rst = true ∧ (⟨true, true, 2, 0x55⟩ : Pins).rst = Pins.reset.rst) ∧
    ((unreset []).resetDone = false ∧ (Pins.command 0x100#10).cmdValid = true ∧
      (Pins.command 0x201#10).cmdValid = true ∧ (Pins.command 0x100#10).rst = (Pins.command 0x201#10).rst) := by decide

/-- AcceptanceRule: a step at an edge that accepts nothing. -/
theorem witness_AcceptanceRule_index :
    accepts (Pins.command 0x300#10) (block .four 0x87FE false 1 [.edge (Pins.command 0x300#10)]) = false ∧
    step (block .four 0x87FE false 1 [.edge (Pins.command 0x300#10)]) =
      .next { block .four 0x807E false 0 [] with draws := 1 } :=
  ⟨rfl, by rfl⟩

/-- ResetEdge, ResetHeld, ReadyAfterReset: two edges, the first with `rst = 1`, on a block never reset. -/
theorem witness_ResetHeld :
    (unreset [.edge Pins.reset, .edge Pins.reset]).script = .edge Pins.reset :: .edge Pins.reset :: [] ∧
    Pins.reset.rst = true := by decide

theorem witness_ReadyAfterReset :
    (unreset [.edge Pins.reset, .edge (Pins.command 0x201#10)]).script =
      .edge Pins.reset :: .edge (Pins.command 0x201#10) :: [] ∧
    Pins.reset.rst = true ∧ (Pins.command 0x201#10).rst = false ∧ (Pins.command 0x201#10).cmdValid = true := by decide

/-- BeforeTheFirstReset: an edge, an offer, and power lost before a reset edge. -/
theorem witness_BeforeTheFirstReset :
    (unreset [.edge (Pins.command 0x201#10)]).resetDone = false ∧
    (Pins.command 0x201#10).rst = false ∧ (Pins.command 0x201#10).cmdValid = true ∧
    (unreset [.offer 0x201#10]).resetDone = false ∧
    (block .two 0 true 3 [.powerLoss, .edge Pins.reset]).script = .powerLoss :: .edge Pins.reset :: [] := by decide

/-- StepNeverStops: a block out of reset; a refusal. -/
theorem witness_StepNeverStops :
    (block .two 0 true 3 [.wait]).resetDone = true ∧ step (unreset [.offer 0x100#10]) = .refused .beforeReset :=
  ⟨rfl, rfl⟩

/-- StepKeepsInv: a busy block with the invariant, at the top of its range, that takes a step. -/
theorem witness_StepKeepsInv :
    (block .one 0x7FFF true 7 [.edge Pins.idle]).Inv ∧
    step (block .one 0x7FFF true 7 [.edge Pins.idle]) =
      .next { block .one 0x7FFF true 7 [] with acc := 0x9FFE#16, cnt := 6#3, draws := 1 } :=
  ⟨fun _ => by decide, by rfl⟩

/-- NeverBusyAtDefault: the reset state, and a BYTE. -/
theorem witness_NeverBusyAtDefault :
    State.reset.Inv ∧ State.reset.resetDone = true ∧ State.reset.bitsPerCycle = .eight ∧
    State.reset.Ready ∧ step State.reset = .next State.reset :=
  ⟨fun _ => by decide, rfl, rfl, by decide, rfl⟩

/-- ErrIsSticky: `err` falls at a reset edge, and rises at a reserved word. -/
theorem witness_ErrIsSticky :
    step (block .eight 0xFFFF true 0 [.edge Pins.reset]) =
      .next { block .eight 0xFFFF true 0 [] with err := false } ∧
    step (block .eight 0x1F64 false 0 [.edge (Pins.command 0x3AB#10)]) =
      .next { block .eight 0x1F64 true 0 [] with cmdIndex := 1 } :=
  ⟨rfl, by rfl⟩

/-- ErrIsNotRead: steps after which the block is out of reset, with `err` set: a busy edge, and the first reset edge. -/
theorem witness_ErrIsNotRead_specified :
    step (block .two 0x81FE true 1 [.edge Pins.idle]) = .next { block .two 0x807E true 0 [] with draws := 1 } ∧
    step { unreset [.edge Pins.reset] with err := true } = .next State.reset :=
  ⟨by rfl, rfl⟩

/-- ErrIsNotRead: a step after which the registers are unspecified. -/
theorem witness_ErrIsNotRead_unspecified :
    step (block .two 0x81FE true 1 [.powerLoss]) = .next (losePower (block .two 0x81FE true 1 [])) ∧
    (losePower (block .two 0x81FE true 1 [])).resetDone = false :=
  ⟨rfl, rfl⟩

/-- ErrIsNotRead and IndexAndParameter: a step that gives a next state, an accepted INIT. -/
theorem witness_ErrIsNotRead :
    step (block .four 0x1234 true 0 [.offer 0x100#10]) =
      .next { block .four 0xFFFF true 0 [] with cmdIndex := 1 } := rfl

/-- AccWriters: an INIT changes `acc`. -/
theorem witness_AccWriters :
    step (block .four 0x1234 false 0 [.edge (Pins.command 0x100#10)]) =
      .next { block .four 0xFFFF false 0 [] with cmdIndex := 1 } ∧ 0xFFFF#16 ≠ 0x1234#16 :=
  ⟨rfl, by decide⟩

/-- ClockLevelRefinesTransactions and IllegalWordsLeftOut: P4's words, then a wait and another offer. -/
theorem witness_ClockLevelRefinesTransactions :
    (block .two 0x1234 false 0
      (([0x100#10, 0x201, 0x3AB, 0x203, 0x100].map .offer) ++ [.wait, .offer 0x000#10])).Ready ∧
    ∀ x ∈ ([.wait, .offer 0x000#10] : List Input), x.patient = true := by decide

/-- MessageContract, MissingInitContinues: a ready block, a message with and without its INIT. -/
theorem witness_MessageContract :
    (block .one 0x1234 false 0 ((crcWords [0x01, 0x03]).map .offer ++ [.wait])).Ready ∧
    (block .one 0xFFFF false 0 (([0x01, 0x03].map byteWord).map .offer ++ [.wait])).acc = 0xFFFF#16 ∧
    (∀ x ∈ ([.wait] : List Input), x.patient = true) := by decide

/-- MissingInitContinues: P3, after `crc 0x01, 0x03, 0x00, 0x42, 0x00, 0x02`. -/
theorem witness_MissingInitContinues :
    (block .eight 0x1F64 false 0 (([0x01, 0x06].map byteWord).map .offer)).Ready ∧
    0x1F64#16 = crc16 [0x01, 0x03, 0x00, 0x42, 0x00, 0x02] ∧
    crc16 [0x01, 0x03, 0x00, 0x42, 0x00, 0x02] ≠ crc16 [] := by decide +kernel

/-- ChecksumIndependentOfTiming: a message with a NOP, an idle edge, a wait and a stopped clock between its words. -/
theorem witness_ChecksumIndependentOfTiming :
    (∀ x ∈ ([.offer 0x100#10, .edge Pins.idle, .offer 0x0A5#10, .offer 0x201#10, .wait, .noEdge Pins.reset,
      .offer 0x203#10] : List Input), x.quiet = true) ∧
    (offeredWords [.offer 0x100#10, .edge Pins.idle, .offer 0x0A5#10, .offer 0x201#10, .wait, .noEdge Pins.reset,
      .offer 0x203#10]).filter (fun w => !isNopWord w) = crcWords [0x01, 0x03] ∧
    (block .two 0x1234 false 0 [.offer 0x100#10]).Ready := by decide

/-- ResidueIsZero and RequestFrameEveryTime: a ready block and the words of the request. -/
theorem witness_RequestFrameEveryTime :
    (block .four 0xABCD true 0 ((crcWords [0x01, 0x03, 0x00, 0x42, 0x00, 0x02]).map .offer)).Ready ∧
    (block .four 0xABCD true 0 ((crcWords (frameOf [0x01, 0x03])).map .offer)).Ready := by decide

/-- OutputPorts: a ready block. -/
theorem witness_OutputPorts : (block .two 0x1F64 false 0 []).cnt = 0#3 := by decide

/-- AssemblerWords and PseudoCommands: where the ranges end. -/
theorem witness_AssemblerWords :
    (255 ≤ 255 ∧ 255 < 256 ∧ 1023 ≤ 1023 ∧ 1023 < 1024) ∧
    (∀ b ∈ [0, 255], b ≤ 255) ∧ ∃ b ∈ [0, 256], 255 < b := by decide

end Sys2Proof.Tests
end

section
/-!
PROOFS. What a whole step does, case by case, and the words on the pins: the layer that the proofs of the family of
10_state.md share.
-/

namespace Sys2Proof.Machine

/-! The word on the port (R45, R46). -/

theorem cmdWord_of_fields (w : CmdWord) : cmdWord (cmdOpOf w) (cmdDataOf w) = w := by
  apply BitVec.eq_of_toNat_eq
  have hw : w.toNat < 1024 := w.isLt
  rw [Laws.WordFields.toNat_cmdWord, cmdOpOf, cmdDataOf, BitVec.extractLsb'_toNat, BitVec.extractLsb'_toNat,
    Nat.shiftRight_eq_div_pow, Nat.shiftRight_eq_div_pow]
  omega

@[simp] theorem Pins.command_cmd (w : CmdWord) : (Pins.command w).cmd = w := cmdWord_of_fields w

@[simp] theorem Pins.command_rst (w : CmdWord) : (Pins.command w).rst = false := rfl

@[simp] theorem Pins.command_cmdValid (w : CmdWord) : (Pins.command w).cmdValid = true := rfl

@[simp] theorem decode_encode (i : Instr) : decode (encode i) = i := by
  cases i <;> simp [decode, encode, Laws.WordFields.fields_of_cmdWord]

/-! What the acceptance of a command reads: `cnt` and the pins alone (R49). -/

@[simp] theorem accepts_idle (s : State) : accepts Pins.idle s = false := rfl

@[simp] theorem accepts_setScript (p : Pins) (s : State) (r : List Input) : accepts p (s.setScript r) = accepts p s := rfl

/-- `rst` is high only where the host drives the pins itself. -/
theorem script_of_pins_rst {s : State} (h : s.pins.rst = true) :
    ∃ p r, p.rst = true ∧ (s.script = .edge p :: r ∨ s.script = .noEdge p :: r) := by
  match hs : s.script with
  | [] => rw [pins_of_nil hs] at h; cases h
  | .edge p :: r => exact ⟨p, r, by rw [pins_of_cons hs] at h; exact h, .inl rfl⟩
  | .noEdge p :: r => exact ⟨p, r, by rw [pins_of_cons hs] at h; exact h, .inr rfl⟩
  | .offer w :: r => rw [pins_of_cons hs] at h; cases h
  | .wait :: r => rw [pins_of_cons hs] at h; cases h
  | .powerLoss :: r => rw [pins_of_cons hs] at h; cases h

/-- Everything a step that answers a next state can have done (R55, R82, R96): the ways to reach a next state from `s`,
each with what holds of `s` then. `r` is what is left of the host's list. -/
inductive StepEffect (s : State) : State → Prop
  /-- No edge, or an edge with nothing to do. -/
  | quiet (r : List Input) : StepEffect s (s.setScript r)
  /-- A reset edge. -/
  | reset (p : Pins) (r : List Input) (hs : s.script = .edge p :: r) (hp : p.rst = true) :
      StepEffect s (applyReset (s.setScript r))
  /-- An idle edge before the first reset edge. -/
  | unspecified (r : List Input) (hr : s.resetDone = false) : StepEffect s (unspecify (s.setScript r))
  /-- A later edge of a BYTE in progress. -/
  | busy (r : List Input) (hr : s.resetDone = true) (hc : s.cnt ≠ 0#3) : StepEffect s (continueByte (s.setScript r))
  /-- An edge that accepts a NOP. -/
  | nop (r : List Input) (data : Byte) (hr : s.resetDone = true) (ha : accepts s.pins s = true)
      (hd : decode s.pins.cmd = .nop data) : StepEffect s (noteAccepted (s.setScript r))
  /-- An edge that accepts an INIT. -/
  | init (r : List Input) (data : Byte) (hr : s.resetDone = true) (ha : accepts s.pins s = true)
      (hd : decode s.pins.cmd = .init data) : StepEffect s (startMessage (noteAccepted (s.setScript r)))
  /-- An edge that accepts a BYTE. -/
  | byte (r : List Input) (d : Byte) (hr : s.resetDone = true) (ha : accepts s.pins s = true)
      (hd : decode s.pins.cmd = .byte d) : StepEffect s (startByte d (noteAccepted (s.setScript r)))
  /-- An edge that accepts a reserved word. -/
  | reserved (r : List Input) (data : Byte) (hr : s.resetDone = true) (ha : accepts s.pins s = true)
      (hd : decode s.pins.cmd = .reserved data) :
      StepEffect s (raiseIllegalCommand (noteAccepted (s.setScript r)))
  /-- The loss of power. -/
  | powerLoss (r : List Input) (hs : s.script = .powerLoss :: r) : StepEffect s (losePower (s.setScript r))

/-- An edge that accepts a command, by the command. -/
theorem stepEffect_of_exec {s t : State} {r : List Input} (hr : s.resetDone = true) (ha : accepts s.pins s = true)
    (h : exec (decode s.pins.cmd) (noteAccepted (s.setScript r)) = .next t) : StepEffect s t := by
  cases hd : decode s.pins.cmd with
  | nop data => rw [hd, exec_nop] at h; cases h; exact .nop r data hr ha hd
  | init data => rw [hd, exec_init] at h; cases h; exact .init r data hr ha hd
  | byte d => rw [hd, exec_byte] at h; cases h; exact .byte r d hr ha hd
  | reserved data => rw [hd, exec_reserved] at h; cases h; exact .reserved r data hr ha hd

/-- The inversion of a step: the one case analysis that the invariants below share. -/
theorem stepEffect_of_step {s t : State} (h : step s = .next t) : StepEffect s t := by
  obtain ⟨r, he⟩ | ⟨r, he⟩ | ⟨r, hs, he⟩ := step_cases s
  · obtain ⟨hrst, -⟩ | ⟨-, hr, -, rfl⟩ | ⟨-, hr, hc, rfl⟩ | ⟨hrst, hr, hc, hv, hx⟩ | ⟨-, -, -, -, rfl⟩ :=
      clockEdge_next_cases (he.symm.trans h)
    · obtain ⟨p, r', hp, hs | hs⟩ := script_of_pins_rst hrst
      · rw [step_edge hs, clockEdge_reset _ hp] at h; cases h; exact .reset p r' hs hp
      · rw [step_noEdge hs] at h; cases h; exact .quiet r'
    · exact .unspecified r hr
    · exact .busy r hr hc
    · exact stepEffect_of_exec hr ((accepts_iff _ _).2 ⟨hrst, hv, hc⟩) hx
    · exact .quiet r
  · cases he.symm.trans h; exact .quiet r
  · cases he.symm.trans h; exact .powerLoss r hs

end Sys2Proof.Machine
end

section
/-!
PROOFS. The invariant of the registers (R20, R88).
-/

namespace Sys2Proof.Machine

/-- R20's half of the invariant: out of reset, `cnt` is in `0 .. BYTE_CYCLES - 1`. -/
def State.CntInRange (s : State) : Prop := s.resetDone = true → s.cnt.toNat < byteCycles s.bitsPerCycle

/-- R88's half of the invariant: out of reset, `err` is set only where an IllegalCommand is recorded. -/
def State.ErrRecorded (s : State) : Prop := s.resetDone = true → s.err = true → s.illegalCommand = true

theorem inv_iff (s : State) : s.Inv ↔ s.CntInRange ∧ s.ErrRecorded := forall_and

theorem cntInRange_of_cnt_eq_zero {s : State} (h : s.cnt = 0#3) : s.CntInRange := by
  intro _
  simpa [h] using byteCycles_pos s.bitsPerCycle

/-- `BYTE_CYCLES - 1` fits the three bits of `cnt` (R9, R20). -/
theorem toNat_firstCnt (p : BitsPerCycle) : (BitVec.ofNat 3 (byteCycles p - 1)).toNat = byteCycles p - 1 := by
  cases p <;> rfl

theorem toNat_firstCnt_lt (p : BitsPerCycle) : (BitVec.ofNat 3 (byteCycles p - 1)).toNat < byteCycles p :=
  (toNat_firstCnt p).trans_lt (Nat.sub_one_lt (byteCycles_pos p).ne')

theorem toNat_sub_one_lt {c : BitVec 3} (h : c ≠ 0#3) : (c - 1#3).toNat < c.toNat := by bv_omega

theorem step_keeps_cntInRange {s t : State} (hi : s.CntInRange) (h : step s = .next t) : t.CntInRange := by
  cases stepEffect_of_step h with
  | quiet r => exact hi
  | reset => exact cntInRange_of_cnt_eq_zero rfl
  | unspecified r hr => intro ht; cases hr.symm.trans ht
  | busy r hr hc => intro _; exact (toNat_sub_one_lt hc).trans (hi hr)
  | nop => exact hi
  | init => exact hi
  | byte => intro _; exact toNat_firstCnt_lt s.bitsPerCycle
  | reserved => exact hi
  | powerLoss => intro ht; cases ht

theorem step_keeps_errRecorded {s t : State} (hi : s.ErrRecorded) (h : step s = .next t) : t.ErrRecorded := by
  cases stepEffect_of_step h with
  | quiet => exact hi
  | reset => intro _ he; cases he
  | unspecified r hr => intro ht; cases hr.symm.trans ht
  | busy => exact hi
  | nop => exact hi
  | init => exact hi
  | byte => exact hi
  | reserved => intro _ _; rfl
  | powerLoss => intro ht; cases ht

/-- Settles O33: each half of the invariant is kept. -/
theorem stepKeepsInv : Obligations.StepKeepsInv := by
  intro s t hi h
  obtain ⟨hcnt, herr⟩ := (inv_iff s).1 hi
  exact (inv_iff t).2 ⟨step_keeps_cntInRange hcnt h, step_keeps_errRecorded herr h⟩

/-- Settles O34: `cnt` is 0 and `err` is clear. -/
theorem resetHasInv : Obligations.ResetHasInv :=
  (inv_iff _).2 ⟨cntInRange_of_cnt_eq_zero rfl, fun _ he => nomatch he⟩

theorem step_bitsPerCycle {s t : State} (h : step s = .next t) : t.bitsPerCycle = s.bitsPerCycle := by
  cases stepEffect_of_step h <;> rfl

/-- With P = 8 the range of `cnt` is 0 alone. -/
theorem cnt_eq_zero_of_default {s : State} (hi : s.CntInRange) (hr : s.resetDone = true)
    (hp : s.bitsPerCycle = .eight) : s.cnt = 0#3 := by
  have hlt : s.cnt.toNat < 1 := by simpa [hp, byteCycles, stepsPerByte, stepsPerCycle] using hi hr
  exact BitVec.eq_of_toNat_eq (by simpa using hlt)

/-- Settles O35: with P = 8, BYTE_CYCLES is 1, and every step keeps `cnt` below it. -/
theorem neverBusyAtDefault : Obligations.NeverBusyAtDefault := by
  refine ⟨fun s hi hr hp => cnt_eq_zero_of_default ((inv_iff s).1 hi).1 hr hp, ?_⟩
  intro s t ⟨_, hc⟩ hp h hr
  have hi : t.CntInRange := step_keeps_cntInRange (cntInRange_of_cnt_eq_zero hc) h
  exact cnt_eq_zero_of_default hi hr ((step_bitsPerCycle h).trans hp)

end Sys2Proof.Machine
end

section
/-!
PROOFS. What writes `err`, `acc` and the host's index (R14, R16, R17), and that no step reads `err`.
-/

namespace Sys2Proof.Machine

theorem step_err_falls {s t : State} (h : step s = .next t) (hr : s.resetDone = true) (hs : s.err = true)
    (ht : t.err = false) :
    (∃ p rest, s.script = .edge p :: rest ∧ p.rst = true) ∨ ∃ rest, s.script = .powerLoss :: rest := by
  cases stepEffect_of_step h with
  | quiet => cases hs.symm.trans ht
  | reset p r hp hrst => exact .inl ⟨p, r, hp, hrst⟩
  | unspecified r hn => cases hr.symm.trans hn
  | busy => cases hs.symm.trans ht
  | nop => cases hs.symm.trans ht
  | init => cases hs.symm.trans ht
  | byte => cases hs.symm.trans ht
  | reserved => cases ht
  | powerLoss r hp => exact .inr ⟨r, hp⟩

theorem step_err_rises {s t : State} (h : step s = .next t) (hr : s.resetDone = true) (hr' : t.resetDone = true)
    (hs : s.err = false) (ht : t.err = true) :
    accepts s.pins s = true ∧ ∃ data, decode s.pins.cmd = .reserved data := by
  cases stepEffect_of_step h with
  | quiet => cases hs.symm.trans ht
  | reset => cases ht
  | unspecified r hn => cases hr.symm.trans hn
  | busy => cases hs.symm.trans ht
  | nop => cases hs.symm.trans ht
  | init => cases hs.symm.trans ht
  | byte => cases hs.symm.trans ht
  | reserved r data _ ha hd => exact ⟨ha, data, hd⟩
  | powerLoss => cases hr'

/-- Settles O36, by the cases of a step. -/
theorem errIsSticky : Obligations.ErrIsSticky :=
  ⟨fun _ _ hr h => step_err_falls h hr, fun _ _ hr h hr' => step_err_rises h hr hr'⟩

/-- Settles O38, by the cases of a step: the remaining ones leave `acc`. -/
theorem accWriters : Obligations.AccWriters := by
  intro s t hr h hr' hacc
  cases stepEffect_of_step h with
  | quiet => exact absurd rfl hacc
  | reset p r hs hp => exact .inl (by rw [pins_of_cons hs]; exact hp)
  | unspecified r hn => cases hr.symm.trans hn
  | busy r _ hc => exact .inr (.inl hc)
  | nop => exact absurd rfl hacc
  | init r data _ ha hd => exact .inr (.inr ⟨ha, data, .inl hd⟩)
  | byte r d _ ha hd => exact .inr (.inr ⟨ha, d, .inr hd⟩)
  | reserved => exact absurd rfl hacc
  | powerLoss => cases hr'

theorem exec_cmdIndex {i : Instr} {s t : State} (h : exec i s = .next t) : t.cmdIndex = s.cmdIndex := by
  cases i <;> cases h <;> rfl

/-- The index of R16 at an edge. -/
theorem clockEdge_cmdIndex {p : Pins} {s t : State} (h : clockEdge p s = .next t) :
    t.cmdIndex = if accepts p s then s.cmdIndex + 1 else s.cmdIndex := by
  obtain ⟨hrst, rfl⟩ | ⟨-, -, hv, rfl⟩ | ⟨-, -, hc, rfl⟩ | ⟨hrst, -, hc, hv, hx⟩ | ⟨-, -, -, hv, rfl⟩ :=
    clockEdge_next_cases h
  · simp [accepts_iff, hrst, applyReset_eq]
  · simp [accepts_iff, hv, unspecify_eq]
  · simp [accepts_iff, hc, continueByte_eq]
  · simp [accepts_iff, hrst, hc, hv, exec_cmdIndex hx, noteAccepted_eq]
  · simp [accepts_iff, hv]

/-- An edge at which the host presents nothing leaves the index. -/
theorem clockEdge_idle_cmdIndex {s t : State} (h : clockEdge Pins.idle s = .next t) : t.cmdIndex = s.cmdIndex := by
  simpa using clockEdge_cmdIndex h

/-- Settles O39, by the host's next input. -/
theorem indexAndParameter : Obligations.IndexAndParameter := by
  intro s t h
  refine ⟨step_bitsPerCycle h, ?_⟩
  match hs : s.script with
  | [] => rw [step_nil hs] at h; exact clockEdge_idle_cmdIndex h
  | .edge p :: rest => rw [step_edge hs] at h; exact (clockEdge_cmdIndex h :)
  | .noEdge p :: rest => rw [step_noEdge hs] at h; cases h; rfl
  | .offer w :: rest =>
    cases ha : accepts (Pins.command w) s with
    | true => rw [step_offer_accepted hs ha] at h; simpa [ha] using clockEdge_cmdIndex h
    | false => rw [step_offer_held hs ha] at h; simpa [ha] using clockEdge_cmdIndex h
  | .wait :: rest =>
    cases hr : s.cmdReady with
    | true => rw [step_wait_over hs hr] at h; cases h; rfl
    | false => rw [step_wait_busy hs hr] at h; exact clockEdge_idle_cmdIndex h
  | .powerLoss :: rest => rw [step_powerLoss hs] at h; cases h; rfl

/-- Two states agree on all that does not depend on `err`: on the fields that are not the block's, and out of reset on
`acc` and `cnt` (R17, R23). -/
def AgreesButErr (t u : State) : Prop :=
  u = { t with acc := u.acc, err := u.err, cnt := u.cnt } ∧
  (t.resetDone = true → u.acc = t.acc ∧ u.cnt = t.cnt)

theorem agreesButErr_setErr (t : State) (b : Bool) : AgreesButErr t (t.setErr b) := ⟨rfl, fun _ => ⟨rfl, rfl⟩⟩

theorem agreesButErr_unspecify {s : State} (b : Bool) (hr : s.resetDone = false) :
    AgreesButErr (unspecify s) (unspecify (s.setErr b)) :=
  ⟨rfl, fun h => nomatch hr.symm.trans h⟩

theorem agreesButErr_losePower (s : State) (b : Bool) : AgreesButErr (losePower s) (losePower (s.setErr b)) :=
  ⟨rfl, nofun⟩

theorem exec_setErr {i : Instr} {s t : State} (b : Bool) (h : exec i s = .next t) :
    ∃ u, exec i (s.setErr b) = .next u ∧ AgreesButErr t u := by
  cases i with
  | nop data => cases h; exact ⟨_, exec_nop data _, agreesButErr_setErr _ b⟩
  | init data => cases h; exact ⟨_, exec_init data _, agreesButErr_setErr _ b⟩
  | byte d => cases h; exact ⟨_, exec_byte d _, agreesButErr_setErr _ b⟩
  | reserved data => cases h; exact ⟨_, exec_reserved data _, agreesButErr_setErr _ true⟩

theorem clockEdge_setErr {p : Pins} {s t : State} (b : Bool) (h : clockEdge p s = .next t) :
    ∃ u, clockEdge p (s.setErr b) = .next u ∧ AgreesButErr t u := by
  obtain ⟨hrst, rfl⟩ | ⟨hrst, hr, hv, rfl⟩ | ⟨hrst, hr, hc, rfl⟩ | ⟨hrst, hr, hc, hv, hx⟩ | ⟨hrst, hr, hc, hv, rfl⟩ :=
    clockEdge_next_cases h
  · exact ⟨_, clockEdge_reset _ hrst, agreesButErr_setErr _ false⟩
  · exact ⟨_, clockEdge_idle_before_reset hrst hr hv, agreesButErr_unspecify b hr⟩
  · exact ⟨_, clockEdge_busy hrst hr hc, agreesButErr_setErr _ b⟩
  · rw [clockEdge_accept (s := s.setErr b) hrst hr hc hv]
    exact exec_setErr b hx
  · exact ⟨_, clockEdge_idle hrst hr hc hv, agreesButErr_setErr _ b⟩

/-- What the host's next input comes to is the same whatever `err` is: an edge at the same pins, no edge, or the loss of
power, with the same rest `r` of the host's list. -/
theorem step_setErr_cases (s : State) (b : Bool) :
    (∃ p r, step s = clockEdge p (s.setScript r) ∧ step (s.setErr b) = clockEdge p ((s.setScript r).setErr b)) ∨
    (∃ r, step s = .next (s.setScript r) ∧ step (s.setErr b) = .next ((s.setScript r).setErr b)) ∨
    ∃ r, step s = .next (losePower (s.setScript r)) ∧
      step (s.setErr b) = .next (losePower ((s.setScript r).setErr b)) := by
  match hs : s.script with
  | [] => exact .inl ⟨Pins.idle, s.script, step_nil hs, step_nil (s := s.setErr b) hs⟩
  | .edge p :: rest => exact .inl ⟨p, rest, step_edge hs, step_edge (s := s.setErr b) hs⟩
  | .noEdge p :: rest => exact .inr (.inl ⟨rest, step_noEdge hs, step_noEdge (s := s.setErr b) hs⟩)
  | .offer w :: rest =>
    refine .inl ?_
    cases ha : accepts (Pins.command w) s with
    | true => exact ⟨_, rest, step_offer_accepted hs ha, step_offer_accepted (s := s.setErr b) hs ha⟩
    | false => exact ⟨_, s.script, step_offer_held hs ha, step_offer_held (s := s.setErr b) hs ha⟩
  | .wait :: rest =>
    cases hr : s.cmdReady with
    | true => exact .inr (.inl ⟨rest, step_wait_over hs hr, step_wait_over (s := s.setErr b) hs hr⟩)
    | false => exact .inl ⟨_, s.script, step_wait_busy hs hr, step_wait_busy (s := s.setErr b) hs hr⟩
  | .powerLoss :: rest => exact .inr (.inr ⟨rest, step_powerLoss hs, step_powerLoss (s := s.setErr b) hs⟩)

theorem step_setErr {s t : State} (b : Bool) (h : step s = .next t) :
    ∃ u, step (s.setErr b) = .next u ∧ AgreesButErr t u := by
  obtain ⟨p, r, hs, hb⟩ | ⟨r, hs, hb⟩ | ⟨r, hs, hb⟩ := step_setErr_cases s b
  · rw [hb]
    exact clockEdge_setErr b (hs.symm.trans h)
  · cases hs.symm.trans h
    exact ⟨_, hb, agreesButErr_setErr _ b⟩
  · cases hs.symm.trans h
    exact ⟨_, hb, agreesButErr_losePower _ b⟩

/-- Settles O37: a step from a state with another `err` agrees with the step from it. -/
theorem errIsNotRead : Obligations.ErrIsNotRead := fun _ _ b h => step_setErr b h

end Sys2Proof.Machine
end

section
/-!
PROOFS. One step of the CRC, bit by bit (R11, R15).
-/

namespace Sys2Proof.Machine

/-- Bit `i` of `crc_step`: the bit above it, and the polynomial's bit `i` where the low bit was set (R11). -/
theorem crcStep_getLsbD (a : Word) (i : Nat) :
    (crcStep a).getLsbD i = (a.getLsbD (i + 1) ^^ (a.getLsbD 0 && (0xA001#16).getLsbD i)) := by
  have h0 : a[0] = a.getLsbD 0 := rfl
  cases h : a.getLsbD 0 with
  | true => simp [crcStep_of_low_bit_set (h0.trans h), Nat.add_comm]
  | false => simp [crcStep_of_low_bit_clear (h0.trans h), Nat.add_comm]

/-- The polynomial has bits 0, 13 and 15 only (R8). -/
theorem polyReflected_middle_bits : ∀ i ≤ 12, 1 ≤ i → (0xA001#16).getLsbD i = false := by decide

/-- Settles O5, from the polynomial's bits. -/
theorem crcStepBits : Obligations.CrcStepBits := by
  intro a
  have hmiddle (i : Nat) (h1 : 1 ≤ i) (h12 : i ≤ 12) : (crcStep a).getLsbD i = a.getLsbD (i + 1) := by
    simp [crcStep_getLsbD, polyReflected_middle_bits i h12 h1]
  refine ⟨?_, ?_, ?_, hmiddle, ?_⟩ <;> rw [crcStep_getLsbD] <;> simp

end Sys2Proof.Machine
end

section
/-!
PROOFS. A BYTE over its cycles, for every P (R21, R64).
-/

namespace Sys2Proof.Machine

/-- Where `n` cycles of a BYTE in progress lead, with nothing left of it: P steps each, one draw each (R21, R64). -/
def State.finishByte (s : State) (n : Nat) (rest : List Input) : State :=
  { s with
    acc := crcSteps (stepsPerCycle s.bitsPerCycle * n) s.acc
    cnt := 0#3
    script := rest
    draws := s.draws + n }

theorem finishByte_zero {s : State} {rest : List Input} (hc : s.cnt = 0#3) (hs : s.script = rest) :
    s.finishByte 0 rest = s := by
  subst hs
  simp [State.finishByte, ← hc]

/-- The first of the cycles left, then the others. -/
theorem continueByte_finishByte (s : State) (r rest : List Input) (n : Nat) :
    (continueByte (s.setScript r)).finishByte n rest = s.finishByte (n + 1) rest := by
  simp [State.finishByte, continueByte_eq, ← crcSteps_add, Nat.mul_succ, Nat.add_comm, Nat.add_left_comm]

/-- A later edge of a BYTE in progress, whatever the port carries (R64, R82). -/
theorem step_busy {s : State} {p : Pins} {rest : List Input} (hr : s.resetDone = true) (hc : s.cnt ≠ 0#3)
    (hp : p.rst = false) (hs : s.script = .edge p :: rest) : step s = .next (continueByte (s.setScript rest)) := by
  rw [step_edge hs]
  exact clockEdge_busy hp hr hc

/-- Edges without reset, as many as the BYTE in progress needs, finish it, whatever the port carries (R21, R82). -/
theorem runSteps_finishByte {s : State} {ps : List Pins} {rest : List Input} (hr : s.resetDone = true)
    (hps : ∀ p ∈ ps, p.rst = false) (hc : s.cnt.toNat = ps.length) (hs : s.script = ps.map .edge ++ rest) :
    runSteps ps.length s = .next (s.finishByte ps.length rest) := by
  induction ps generalizing s with
  | nil =>
    have hc0 : s.cnt = 0#3 := BitVec.eq_of_toNat_eq hc
    exact congrArg Host.Outcome.next (finishByte_zero hc0 hs).symm
  | cons p ps ih =>
    obtain ⟨hp, hps⟩ := List.forall_mem_cons.1 hps
    rw [List.length_cons] at hc
    rw [List.map_cons, List.cons_append] at hs
    have hc0 : s.cnt ≠ 0#3 := by intro h; simp [h] at hc
    have hcnt : (s.cnt - 1#3).toNat = ps.length := by bv_omega
    have htail := ih (s := continueByte (s.setScript (ps.map .edge ++ rest))) hr hps hcnt rfl
    rw [List.length_cons, runSteps_succ_of_step _ (step_busy hr hc0 hp hs), htail, continueByte_finishByte]

/-- The accepting edge of a BYTE that a ready block is offered at an edge (R49, R64). -/
theorem step_byte_of_ready {s : State} {d : Byte} {rest : List Input} (h : s.Ready)
    (hs : s.script = .edge (Pins.command (encode (.byte d))) :: rest) :
    step s = .next (startByte d (noteAccepted (s.setScript rest))) := by
  obtain ⟨hr, hc⟩ := h
  rw [step_edge hs, clockEdge_accept (s := s.setScript rest) rfl hr hc rfl, Pins.command_cmd, decode_encode, exec_byte]

/-- The cycles of a whole BYTE make the 8 steps of `crc_byte` (R9, R11). -/
theorem crcSteps_firstCycle_then_rest {p : BitsPerCycle} {n : Nat} (hn : n + 1 = byteCycles p) (a : Word) (d : Byte) :
    crcSteps (stepsPerCycle p * n) (crcSteps (stepsPerCycle p) (a ^^^ zext16 d)) = crcByte a d := by
  have h8 : stepsPerCycle p + stepsPerCycle p * n = 8 := by
    rw [← stepsPerCycle_mul_byteCycles p, ← hn, Nat.mul_succ, Nat.add_comm]
  rw [← crcSteps_add, h8, crcByte_eq_steps]

/-- Settles O21: the accepting edge, then an induction on the edges that finish the byte. -/
theorem byteResult : Obligations.ByteResult := by
  intro s d ps rest hready hps hlen hs
  have hc : (BitVec.ofNat 3 (byteCycles s.bitsPerCycle - 1)).toNat = ps.length := by
    rw [toNat_firstCnt, ← hlen, Nat.add_sub_cancel]
  have hfinish := runSteps_finishByte (s := startByte d (noteAccepted (s.setScript (ps.map .edge ++ rest))))
    hready.1 hps hc rfl
  rw [← hlen, runSteps_succ_of_step _ (step_byte_of_ready hready hs), hfinish]
  simp [State.finishByte, startByte_eq, noteAccepted_eq, crcSteps_firstCycle_then_rest hlen, hready.2,
    Nat.add_comm, Nat.add_left_comm]

end Sys2Proof.Machine
end

section
/-!
PROOFS. The output ports (R18, R24, R46).
-/

namespace Sys2Proof.Machine

/-- A 16-bit value is its two bytes (R10). -/
theorem highByte_append_lowByte (v : Word) : highByte v ++ lowByte v = v := by
  apply BitVec.eq_of_toNat_eq
  rw [highByte, lowByte, BitVec.toNat_append, ← Nat.shiftLeft_add_eq_or_of_lt (BitVec.isLt _),
    BitVec.extractLsb'_toNat, BitVec.extractLsb'_toNat, Nat.shiftLeft_eq, Nat.shiftRight_eq_div_pow]
  have hv : v.toNat < 65536 := v.isLt
  omega

theorem crc_of_idle {s : State} (h : s.cnt = 0#3) : s.crc = s.acc := by simp [State.crc, h]

/-- Settles O40: each port by its definition. -/
theorem outputPorts : Obligations.OutputPorts := by
  intro s
  refine ⟨?_, fun hc => ⟨crc_of_idle hc, ?_, ?_⟩, highByte_append_lowByte s.crc, rfl⟩
  · simp [State.cmdReady, cmdReadyOf]
  · rw [State.crcLo, crc_of_idle hc, lowByte]
  · rw [State.crcHi, crc_of_idle hc, highByte]

end Sys2Proof.Machine
end

section
/-!
PROOFS. Words and commands (R45, R47, R50): a word is its two fields, decoding and encoding are inverse, and where in the
1024 words each command lies.
-/

namespace Sys2Proof.Machine

open Laws.WordFields

theorem encode_eq_cmdWord (i : Instr) : encode i = cmdWord (opOf i) (dataOf i) := by cases i <;> rfl

/-- An op code that is none of the first three is 0b11: the decoder's last case (R47). -/
theorem op_eq_three {op : BitVec 2} (h0 : op ≠ 0b00#2) (h1 : op ≠ 0b01#2) (h2 : op ≠ 0b10#2) : op = 0b11#2 := by
  bv_omega

/-- The decoder loses neither field of the word. -/
theorem fields_of_decode (w : CmdWord) : opOf (decode w) = cmdOpOf w ∧ dataOf (decode w) = cmdDataOf w := by
  unfold decode
  split_ifs with h0 h1 h2
  · exact ⟨h0.symm, rfl⟩
  · exact ⟨h1.symm, rfl⟩
  · exact ⟨h2.symm, rfl⟩
  · exact ⟨(op_eq_three h0 h1 h2).symm, rfl⟩

@[simp] theorem encode_decode (w : CmdWord) : encode (decode w) = w := by
  obtain ⟨hop, hdata⟩ := fields_of_decode w
  rw [encode_eq_cmdWord, hop, hdata, cmdWord_of_fields]

/-- Settles O1: both fields pass through the word, and through the decoder. -/
theorem decodeEncodeAgree : Obligations.DecodeEncodeAgree := ⟨decode_encode, encode_decode⟩

theorem decode_eq_iff {w : CmdWord} {i : Instr} : decode w = i ↔ w = encode i :=
  ⟨fun h => by rw [← h, encode_decode], fun h => by rw [h, decode_encode]⟩

theorem eq_cmdWord_of_op {w : CmdWord} {op : BitVec 2} (h : cmdOpOf w = op) : w = cmdWord op (cmdDataOf w) := by
  rw [← h, cmdWord_of_fields]

theorem cmdOpOf_eq_iff {w : CmdWord} {op : BitVec 2} : cmdOpOf w = op ↔ ∃ data, w = cmdWord op data :=
  ⟨fun h => ⟨_, eq_cmdWord_of_op h⟩, fun ⟨data, h⟩ => h ▸ (fields_of_cmdWord op data).1⟩

/-- The op is the number of the block of 256 words that the word lies in (R45, R50). -/
theorem toNat_cmdOpOf (w : CmdWord) : (cmdOpOf w).toNat = w.toNat / 256 := by
  have hw : w.toNat < 1024 := w.isLt
  rw [cmdOpOf, BitVec.extractLsb'_toNat, Nat.shiftRight_eq_div_pow]
  omega

theorem cmdOpOf_eq_of_range {w : CmdWord} {op : BitVec 2} (hlo : op.toNat * 256 ≤ w.toNat)
    (hhi : w.toNat < op.toNat * 256 + 256) : cmdOpOf w = op :=
  BitVec.eq_of_toNat_eq (by rw [toNat_cmdOpOf]; omega)

/-- The mask 0x300 keeps the op and clears the data field. -/
theorem and_mask_eq (w : CmdWord) : w &&& 0x300#10 = cmdWord (cmdOpOf w) 0x00#8 :=
  calc w &&& 0x300#10
    _ = cmdWord (cmdOpOf w) (cmdDataOf w) &&& cmdWord (BitVec.allOnes 2) 0x00#8 := by rw [cmdWord_of_fields]; rfl
    _ = cmdWord (cmdOpOf w &&& BitVec.allOnes 2) (cmdDataOf w &&& 0x00#8) := BitVec.and_append
    _ = cmdWord (cmdOpOf w) 0x00#8 := by rw [BitVec.and_allOnes, BitVec.and_zero]

theorem and_mask_eq_iff {w : CmdWord} (op : BitVec 2) : w &&& 0x300#10 = cmdWord op 0x00#8 ↔ cmdOpOf w = op := by
  rw [and_mask_eq]
  exact ⟨fun h => by simpa [fields_of_cmdWord] using congrArg cmdOpOf h, fun h => by rw [h]⟩

/-- A row of the table (R50): the words that meet its match under its mask are the encodings of its commands. -/
theorem and_mask_eq_iff_decode {w : CmdWord} (op : BitVec 2) {f : Byte → Instr}
    (hf : ∀ data, encode (f data) = cmdWord op data) :
    w &&& 0x300#10 = cmdWord op 0x00#8 ↔ ∃ data, decode w = f data := by
  simp only [and_mask_eq_iff, cmdOpOf_eq_iff, decode_eq_iff, hf]

theorem decode_of_op {w : CmdWord} {op : BitVec 2} {f : Byte → Instr} (hf : ∀ data, encode (f data) = cmdWord op data)
    (h : cmdOpOf w = op) : decode w = f (cmdDataOf w) :=
  decode_eq_iff.2 ((eq_cmdWord_of_op h).trans (hf _).symm)

/-- A range of 256 words (R50): its words decode to the command of its op. -/
theorem decode_of_range {w : CmdWord} (op : BitVec 2) {f : Byte → Instr}
    (hf : ∀ data, encode (f data) = cmdWord op data) (hlo : op.toNat * 256 ≤ w.toNat)
    (hhi : w.toNat < op.toNat * 256 + 256) : decode w = f (cmdDataOf w) :=
  decode_of_op hf (cmdOpOf_eq_of_range hlo hhi)

/-- Settles O2: a range fixes the op, and so does a match under the mask; the op fixes the command. -/
theorem decodeByRange : Obligations.DecodeByRange := fun w =>
  ⟨fun h => decode_of_range 0b00#2 (fun _ => rfl) (Nat.zero_le _) (Nat.lt_succ_of_le h),
    fun ⟨hlo, hhi⟩ => decode_of_range 0b01#2 (fun _ => rfl) hlo (Nat.lt_succ_of_le hhi),
    fun ⟨hlo, hhi⟩ => decode_of_range 0b10#2 (fun _ => rfl) hlo (Nat.lt_succ_of_le hhi),
    fun h => decode_of_range 0b11#2 (fun _ => rfl) h w.isLt,
    and_mask_eq_iff_decode 0b00#2 fun _ => rfl, and_mask_eq_iff_decode 0b01#2 fun _ => rfl,
    and_mask_eq_iff_decode 0b10#2 fun _ => rfl, and_mask_eq_iff_decode 0b11#2 fun _ => rfl⟩

/-- Settles O3: six closed instances of the decoder. -/
theorem sampleWordsDecode : Obligations.SampleWordsDecode := by
  unfold Obligations.SampleWordsDecode
  decide

/-- Settles O4: the word on the port is the word of its two fields. -/
theorem commandWordOnPins : Obligations.CommandWordOnPins := by
  refine ⟨fun p => ?_, fun w => ⟨Pins.command_cmd w, rfl, rfl⟩⟩
  obtain ⟨hop, hdata⟩ := fields_of_cmdWord p.cmdOp p.cmdData
  exact ⟨toNat_cmdWord p.cmdOp p.cmdData, hop, hdata⟩

end Sys2Proof.Machine
end

section
/-!
PROOFS. BYTE's operand and the data field that the other commands ignore (R48).
-/

namespace Sys2Proof.Machine

theorem lowByte_xor (a b : Word) : lowByte (a ^^^ b) = lowByte a ^^^ lowByte b := BitVec.extractLsb'_xor

theorem highByte_xor (a b : Word) : highByte (a ^^^ b) = highByte a ^^^ highByte b := BitVec.extractLsb'_xor

@[simp] theorem lowByte_zext16 (d : Byte) : lowByte (zext16 d) = d := by
  have hd : d.toNat < 256 := d.isLt
  apply BitVec.eq_of_toNat_eq
  rw [lowByte, zext16, BitVec.extractLsb'_toNat, BitVec.toNat_setWidth, Nat.shiftRight_zero]
  omega

@[simp] theorem highByte_zext16 (d : Byte) : highByte (zext16 d) = 0#8 := by
  have hd : d.toNat < 256 := d.isLt
  apply BitVec.eq_of_toNat_eq
  rw [highByte, zext16, BitVec.extractLsb'_toNat, BitVec.toNat_setWidth, BitVec.toNat_zero,
    Nat.shiftRight_eq_div_pow]
  omega

/-- The operand reaches `acc[7:0]` only (R48). -/
theorem bytes_of_xorOperand (a : Word) (d : Byte) :
    highByte (xorOperand a d) = highByte a ∧ lowByte (xorOperand a d) = lowByte a ^^^ d := by
  simp [xorOperand, highByte_xor, lowByte_xor]

/-- Settles O23: the bytes of the operand's XOR, the decoder at op 0b10, and meanings that do not read `data`. -/
theorem operandAssembly : Obligations.OperandAssembly :=
  ⟨fun a d => ⟨rfl, bytes_of_xorOperand a d⟩, fun _ h => decode_of_op (fun _ => rfl) h,
    fun _ _ => ⟨rfl, rfl, rfl⟩, rfl, rfl⟩

end Sys2Proof.Machine
end

section
/-!
PROOFS. When an edge accepts a command, and what the port does otherwise (R49, R82).
-/

namespace Sys2Proof.Machine

theorem accepts_iff_cmdReady {s : State} {p : Pins} {rest : List Input} (hs : s.script = .edge p :: rest) :
    accepts p s = true ↔ p.rst = false ∧ p.cmdValid = true ∧ s.cmdReady = true := by
  simp [accepts, State.cmdReady, pins_of_cons hs, Input.pins, and_assoc]

theorem accepts_command_of_ready {s : State} (w : CmdWord) (h : s.Ready) : accepts (Pins.command w) s = true :=
  (accepts_iff _ _).2 ⟨rfl, rfl, h.2⟩

theorem clockEdge_of_accepts {s : State} {p : Pins} (hr : s.resetDone = true) (ha : accepts p s = true) :
    clockEdge p s = exec (decode p.cmd) (noteAccepted s) := by
  obtain ⟨hrst, hv, hc⟩ := (accepts_iff p s).1 ha
  exact clockEdge_accept hrst hr hc hv

/-- The step at an edge that accepts a command (R49). -/
theorem step_edge_of_accepts {s : State} {p : Pins} {rest : List Input} (hr : s.resetDone = true)
    (ha : accepts p s = true) (hs : s.script = .edge p :: rest) :
    step s = exec (decode p.cmd) (noteAccepted (s.setScript rest)) :=
  (step_edge hs).trans (clockEdge_of_accepts (s := s.setScript rest) hr ha)

/-- The step of a ready block to which a word is offered (R106). -/
theorem step_offer_of_ready {s : State} {w : CmdWord} {rest : List Input} (h : s.Ready)
    (hs : s.script = .offer w :: rest) : step s = exec (decode w) (noteAccepted (s.setScript rest)) := by
  have ha : accepts (Pins.command w) s = true := accepts_command_of_ready w h
  rw [step_offer_accepted hs ha, clockEdge_of_accepts (s := s.setScript rest) h.1 ha, Pins.command_cmd]

/-- Settles O24, for an edge and for an offer. -/
theorem stepRunsAcceptedCommand : Obligations.StepRunsAcceptedCommand :=
  ⟨fun _ _ _ hr ha hs => step_edge_of_accepts hr ha hs, fun _ _ _ h hs => step_offer_of_ready h hs⟩

/-- Out of reset, an edge that accepts nothing does what it would do with nothing presented (R49). -/
theorem clockEdge_of_not_accepts {s : State} {p : Pins} (hr : s.resetDone = true) (ha : accepts p s = false) :
    clockEdge p s = clockEdge { Pins.idle with rst := p.rst } s := by
  cases hrst : p.rst with
  | true => rw [clockEdge_reset s hrst, clockEdge_reset s rfl]
  | false =>
    by_cases hc : s.cnt = 0#3
    · have hv : p.cmdValid = false := by simpa [accepts, cmdReadyOf, hrst, hc] using ha
      rw [clockEdge_idle hrst hr hc hv, clockEdge_idle rfl hr hc rfl]
    · rw [clockEdge_busy hrst hr hc, clockEdge_busy rfl hr hc]

/-- Before the first reset edge, and without `rst`, two edges that present commands are both refused (R23; log 7). -/
theorem clockEdge_commands_before_reset {s : State} {p p' : Pins} (hrst : p'.rst = p.rst) (hr : s.resetDone = false)
    (hv : p.cmdValid = true) (hv' : p'.cmdValid = true) : clockEdge p' s = clockEdge p s := by
  cases h : p.rst with
  | true => rw [clockEdge_reset s h, clockEdge_reset s (hrst.trans h)]
  | false =>
    rw [clockEdge_command_before_reset h hr hv, clockEdge_command_before_reset (hrst.trans h) hr hv']

/-- Two edges with one `rst` at which the port has no effect do the same. -/
theorem clockEdge_port_ignored {s : State} {p p' : Pins} (hrst : p'.rst = p.rst)
    (h : (s.resetDone = true ∧ accepts p s = false ∧ accepts p' s = false) ∨ p.rst = true ∨
      (s.resetDone = false ∧ p.cmdValid = true ∧ p'.cmdValid = true)) : clockEdge p' s = clockEdge p s := by
  obtain ⟨hr, ha, ha'⟩ | hreset | ⟨hr, hv, hv'⟩ := h
  · rw [clockEdge_of_not_accepts hr ha, clockEdge_of_not_accepts hr ha', hrst]
  · rw [clockEdge_reset s hreset, clockEdge_reset s (hrst.trans hreset)]
  · exact clockEdge_commands_before_reset hrst hr hv hv'

/-- Settles O26: the edge's cases, and the index by whether it accepts. -/
theorem acceptanceRule : Obligations.AcceptanceRule := by
  refine ⟨fun s p rest => accepts_iff_cmdReady, fun s p rest hr ha hs => step_edge_of_accepts hr ha hs,
    fun s p p' rest hrst h => ?port, fun s t p rest ha hs h => ?index⟩
  case port =>
    rw [step_edge rfl, step_edge rfl]
    exact clockEdge_port_ignored (s := s.setScript rest) hrst h
  case index =>
    rw [step_edge hs] at h
    simpa [ha] using clockEdge_cmdIndex h

end Sys2Proof.Machine
end

section
/-!
PROOFS. The assembler's lines and pseudo-commands (R53, R54).
-/

namespace Sys2Proof.Machine

theorem assembleLine_of_wellFormed {l : AsmLine} (h : l.wellFormed = true) : assembleLine l = some (lineWords l) :=
  if_pos h

theorem assembleLine_of_not_wellFormed {l : AsmLine} (h : l.wellFormed = false) : assembleLine l = none := by
  simp [assembleLine, h]

theorem imm8Ok_iff {n : Nat} : imm8Ok n = true ↔ n ≤ 255 := by simp [imm8Ok, Nat.lt_succ_iff]

theorem imm10Ok_iff {n : Nat} : imm10Ok n = true ↔ n ≤ 1023 := by simp [imm10Ok, Nat.lt_succ_iff]

/-- The word of `byte n` as a number (R53). -/
theorem byteWord_ofNat {n : Nat} (h : n ≤ 255) : byteWord (BitVec.ofNat 8 n) = BitVec.ofNat 10 (0x200 + n) := by
  apply BitVec.eq_of_toNat_eq
  rw [byteWord, encode, Laws.WordFields.toNat_cmdWord]
  simp only [BitVec.toNat_ofNat]
  omega

theorem assembleLine_byte {n : Nat} (h : n ≤ 255) : assembleLine (.byte n) = some [BitVec.ofNat 10 (0x200 + n)] := by
  rw [assembleLine_of_wellFormed (l := .byte n) (imm8Ok_iff.2 h), lineWords, byteWord_ofNat h]

/-- Settles O47: the operand's range decides, and `byteWord_ofNat` gives the word. -/
theorem assemblerWords : Obligations.AssemblerWords := by
  refine ⟨rfl, rfl, fun n => ⟨assembleLine_byte, fun h => ?_, fun h => ?_, fun h => ?_⟩⟩
  · exact assembleLine_of_not_wellFormed (Bool.eq_false_iff.2 (imm8Ok_iff.not.2 h.not_ge))
  · exact assembleLine_of_wellFormed (imm10Ok_iff.2 h)
  · exact assembleLine_of_not_wellFormed (Bool.eq_false_iff.2 (imm10Ok_iff.not.2 h.not_ge))

theorem crc_wellFormed_iff {bs : List Nat} : (AsmLine.crc bs).wellFormed = true ↔ ∀ b ∈ bs, b ≤ 255 := by
  simp [AsmLine.wellFormed, imm8Ok_iff]

theorem assemble_cons {l : AsmLine} {ls : List AsmLine} {ws rest : List CmdWord} (hl : assembleLine l = some ws)
    (hls : assemble ls = some rest) : assemble (l :: ls) = some (ws ++ rest) := by
  simp [assemble, hl, hls]

/-- A program of `byte` lines assembles to their words in order. -/
theorem assemble_bytes {bs : List Nat} (h : ∀ b ∈ bs, b ≤ 255) :
    assemble (bs.map .byte) = some (bs.map fun b => BitVec.ofNat 10 (0x200 + b)) := by
  induction bs with
  | nil => rfl
  | cons b bs ih =>
    obtain ⟨hb, hbs⟩ := List.forall_mem_cons.1 h
    exact assemble_cons (assembleLine_byte hb) (ih hbs)

theorem assembleLine_crc {bs : List Nat} (h : ∀ b ∈ bs, b ≤ 255) :
    assembleLine (.crc bs) = some (0x100#10 :: bs.map fun b => BitVec.ofNat 10 (0x200 + b)) := by
  have hwords : (bs.map (BitVec.ofNat 8)).map byteWord = bs.map fun b => BitVec.ofNat 10 (0x200 + b) := by
    rw [List.map_map]
    exact List.map_congr_left fun b hb => byteWord_ofNat (h b hb)
  rw [assembleLine_of_wellFormed (crc_wellFormed_iff.2 h), lineWords, crcWords, hwords]
  rfl

/-- Settles O48: `crc` and the lines it stands for assemble to the same words. -/
theorem pseudoCommands : Obligations.PseudoCommands := by
  refine ⟨fun bs h => ⟨assembleLine_crc h, ?lines⟩, fun bs ⟨b, hb, hlt⟩ => ?refused, rfl, fun bs => rfl⟩
  case lines =>
    have hinit : assembleLine .init = some [0x100#10] := rfl
    exact (assembleLine_crc h).trans (assemble_cons hinit (assemble_bytes h)).symm
  case refused =>
    exact assembleLine_of_not_wellFormed (Bool.eq_false_iff.2 fun hwf => hlt.not_ge (crc_wellFormed_iff.1 hwf b hb))

end Sys2Proof.Machine
end

section
/-!
PROOFS. The algebra of the CRC (R66): `crc_step` and `crc_byte` are linear over XOR, and neither loses a bit.
-/

namespace Sys2Proof.Machine

/-! Bytes of a word (R10). -/

theorem zext16_xor (d d' : Byte) : zext16 (d ^^^ d') = zext16 d ^^^ zext16 d' := BitVec.setWidth_xor

@[simp] theorem zext16_zero : zext16 0#8 = 0#16 := rfl

theorem zext16_injective : Function.Injective zext16 := Function.LeftInverse.injective lowByte_zext16

theorem zext16_eq_wordOfBytes (d : Byte) : zext16 d = wordOfBytes 0#8 d := BitVec.setWidth_eq_append (by decide)

/-- A word is its high byte above zeros, XOR its low byte. -/
theorem highByte_append_zero_xor (a : Word) : wordOfBytes (highByte a) 0#8 ^^^ zext16 (lowByte a) = a :=
  calc wordOfBytes (highByte a) 0#8 ^^^ zext16 (lowByte a)
    _ = wordOfBytes (highByte a) 0#8 ^^^ wordOfBytes 0#8 (lowByte a) := by rw [zext16_eq_wordOfBytes]
    _ = wordOfBytes (highByte a ^^^ 0#8) (0#8 ^^^ lowByte a) := BitVec.xor_append
    _ = a := by rw [BitVec.xor_zero, BitVec.zero_xor]; exact highByte_append_lowByte a

/-! Linearity. -/

/-- `crc_step` as one XOR (R66). -/
theorem crcStep_eq_xor_ite (a : Word) : crcStep a = (a >>> 1) ^^^ (if a.getLsbD 0 then 0xA001#16 else 0#16) := by
  have h0 : a[0] = a.getLsbD 0 := rfl
  cases h : a.getLsbD 0 with
  | true => simpa using crcStep_of_low_bit_set (h0.trans h)
  | false => simpa using crcStep_of_low_bit_clear (h0.trans h)

theorem crcStep_xor (a b : Word) : crcStep (a ^^^ b) = crcStep a ^^^ crcStep b := by
  apply BitVec.eq_of_getLsbD_eq
  intro i _
  simp only [crcStep_getLsbD, BitVec.getLsbD_xor, Bool.and_xor_distrib_right, Bool.xor_assoc, Bool.xor_left_comm]

@[simp] theorem crcStep_zero : crcStep 0#16 = 0#16 := rfl

theorem crcSteps_xor (n : Nat) (a b : Word) : crcSteps n (a ^^^ b) = crcSteps n a ^^^ crcSteps n b := by
  induction n generalizing a b with
  | zero => rfl
  | succ n ih => simp only [crcSteps_succ, crcStep_xor, ih]

theorem crcByte_xor (a a' : Word) (d d' : Byte) : crcByte (a ^^^ a') (d ^^^ d') = crcByte a d ^^^ crcByte a' d' := by
  simp only [crcByte_eq_steps, ← crcSteps_xor, zext16_xor]
  congr 1
  ac_rfl

/-! Injectivity. -/

/-- Bit 15 of the polynomial hands the low bit on; every other bit only moves down. -/
theorem eq_zero_of_crcStep_eq_zero {a : Word} (h : crcStep a = 0#16) : a = 0#16 := by
  have hbit (i : Nat) : (a.getLsbD (i + 1) ^^ (a.getLsbD 0 && (0xA001#16).getLsbD i)) = false := by
    rw [← crcStep_getLsbD, h, BitVec.getLsbD_zero]
  have hlow : a.getLsbD 0 = false := by simpa using hbit 15
  apply BitVec.eq_of_getLsbD_eq
  intro i _
  cases i with
  | zero => simpa using hlow
  | succ i => rw [BitVec.getLsbD_zero, ← hbit i, hlow, Bool.false_and, Bool.xor_false]

theorem crcStep_injective : Function.Injective crcStep := by
  intro a b h
  refine BitVec.xor_eq_zero_iff.1 (eq_zero_of_crcStep_eq_zero ?_)
  rw [crcStep_xor, h, BitVec.xor_self]

theorem crcSteps_injective (n : Nat) : Function.Injective (crcSteps n) := by
  induction n with
  | zero => exact Function.injective_id
  | succ n ih => exact ih.comp crcStep_injective

theorem crcByte_left_injective (d : Byte) : Function.Injective fun a => crcByte a d := fun _ _ h =>
  (BitVec.xor_left_inj (zext16 d)).1 (crcSteps_injective 8 h)

theorem crcByte_right_injective (a : Word) : Function.Injective (crcByte a) := fun _ _ h =>
  zext16_injective ((BitVec.xor_right_inj a).1 (crcSteps_injective 8 h))

/-- Settles O6: linear by bits; injective, and so bijective on the finitely many words. -/
theorem crcLinearAndBijective : Obligations.CrcLinearAndBijective :=
  ⟨crcStep_eq_xor_ite, crcStep_xor, rfl, crcByte_xor, rfl, Finite.injective_iff_bijective.1 crcStep_injective,
    fun a => (crcStepBits a).1, fun d => Finite.injective_iff_bijective.1 (crcByte_left_injective d)⟩

/-- Settles O14: `crc_byte` is injective in each argument. -/
theorem everyBitMatters : Obligations.EveryBitMatters := fun a _ d _ =>
  ⟨(crcByte_left_injective d).ne, (crcByte_right_injective a).ne⟩

end Sys2Proof.Machine
end

section
/-!
PROOFS. The other forms of `crc_byte`: by table (R67), by bits (R68), and what a byte does with the two bytes of the
accumulator (R69, R72).
-/

namespace Sys2Proof.Machine

/-- While the bits shifted out are 0 a step is a shift (R11). -/
theorem crcSteps_of_low_bits_clear {n : Nat} {a : Word} (h : ∀ i < n, a.getLsbD i = false) :
    crcSteps n a = a >>> n := by
  induction n generalizing a with
  | zero => rfl
  | succ n ih =>
    have hstep : crcStep a = a >>> 1 := crcStep_of_low_bit_clear (h 0 n.succ_pos)
    have hlow : ∀ i < n, (a >>> 1).getLsbD i = false := fun i hi => by
      simpa [Nat.add_comm] using h (i + 1) (Nat.succ_lt_succ hi)
    rw [crcSteps_succ, hstep, ih hlow, ← BitVec.shiftRight_add, Nat.add_comm]

theorem wordOfBytes_zero_shiftRight (h : Byte) : wordOfBytes h 0#8 >>> 8 = zext16 h := by
  have hh : h.toNat < 256 := h.isLt
  apply BitVec.eq_of_toNat_eq
  rw [wordOfBytes, zext16, BitVec.toNat_ushiftRight, BitVec.toNat_append, BitVec.toNat_setWidth, BitVec.toNat_zero,
    Nat.or_zero, Nat.shiftLeft_shiftRight]
  omega

/-- Eight steps take a high byte above zeros down, unchanged (R69). -/
theorem crcSteps_high (h : Byte) : crcSteps 8 (wordOfBytes h 0#8) = zext16 h :=
  calc crcSteps 8 (wordOfBytes h 0#8)
    _ = wordOfBytes h 0#8 >>> 8 := crcSteps_of_low_bits_clear fun i hi => by
      rw [wordOfBytes, BitVec.getLsbD_append, if_pos hi, BitVec.getLsbD_zero]
    _ = zext16 h := wordOfBytes_zero_shiftRight h

theorem crcByte_eq_high_xor_table (a : Word) (d : Byte) :
    crcByte a d = zext16 (highByte a) ^^^ crcTable (lowByte a ^^^ d) :=
  calc crcByte a d
    _ = crcByte (wordOfBytes (highByte a) 0#8 ^^^ zext16 (lowByte a)) (0#8 ^^^ d) := by
      rw [highByte_append_zero_xor, BitVec.zero_xor]
    _ = crcByte (wordOfBytes (highByte a) 0#8) 0#8 ^^^ crcByte (zext16 (lowByte a)) d := crcByte_xor _ _ _ _
    _ = zext16 (highByte a) ^^^ crcTable (lowByte a ^^^ d) := by
      simp only [crcTable, crcByte_eq_steps, zext16_xor, zext16_zero, BitVec.xor_zero, BitVec.zero_xor, crcSteps_high]

/-- Settles O7: the high byte moves down and the low byte meets the operand. -/
theorem tableForm : Obligations.TableForm :=
  ⟨fun _ => rfl, crcByte_eq_high_xor_table, fun a d => (crcByte_eq_high_xor_table a d).symm⟩

@[simp] theorem crcTable_zero : crcTable 0#8 = 0#16 := rfl

/-- The low bits alone decide the bits that the first steps test (R69). -/
theorem crcSteps_low_bit_congr {x y : Word} {k : Nat} (hk : k < 8) (h : lowByte x = lowByte y) :
    (crcSteps k x).getLsbD 0 = (crcSteps k y).getLsbD 0 := by
  have hlow (i : Nat) (hi : i < 8) : (x ^^^ y).getLsbD i = false := by
    have hbyte : (lowByte (x ^^^ y)).getLsbD i = false := by rw [lowByte_xor, h, BitVec.xor_self, BitVec.getLsbD_zero]
    simpa [lowByte, hi] using hbyte
  have hshift : crcSteps k x ^^^ crcSteps k y = (x ^^^ y) >>> k := by
    rw [← crcSteps_xor, crcSteps_of_low_bits_clear fun i hi => hlow i (hi.trans hk)]
  have hbit : (crcSteps k x ^^^ crcSteps k y).getLsbD 0 = false := by
    rw [hshift, BitVec.getLsbD_ushiftRight, Nat.add_zero, hlow k hk]
  simpa using hbit

/-- Settles O10: the accumulators' XORs have one low byte; the high byte is the table form's. -/
theorem feedbackFromLowByte : Obligations.FeedbackFromLowByte := by
  refine ⟨fun a a' d d' k hk h => crcSteps_low_bit_congr hk ?_, fun a d => ?_⟩
  · simpa [lowByte_xor] using h
  · simp [crcByte_eq_high_xor_table]

theorem crcByte_own_low (c : Word) : crcByte c (lowByte c) = zext16 (highByte c) := by
  simp [crcByte_eq_high_xor_table]

theorem crcByte_zext16_self (h : Byte) : crcByte (zext16 h) h = 0#16 := by
  simp [crcByte_eq_high_xor_table]

/-- Settles O11: the table's entry 0 is 0. -/
theorem ownCheckBytesAbsorbed : Obligations.OwnCheckBytesAbsorbed := fun c =>
  ⟨crcByte_own_low c, crcByte_zext16_self (highByte c)⟩

/-! The bit-serial form. -/

/-- The low bit of `x` is the input bit; the rest of `x` moves down (R68). -/
theorem crcStep_xor_eq_crcBit (a x : Word) : crcStep (a ^^^ x) = crcBit a (x.getLsbD 0) ^^^ (x >>> 1) := by
  have h0 : a[0] = a.getLsbD 0 := rfl
  rw [crcStep_eq_xor_ite, crcBit, BitVec.ushiftRight_xor_distrib, BitVec.getLsbD_xor, h0]
  ac_rfl

/-- `n` steps take in `n` bits of `x`, the lowest first (R68). -/
theorem crcSteps_xor_eq_foldl_crcBit (n : Nat) (a x : Word) :
    crcSteps n (a ^^^ x) = ((List.range n).map x.getLsbD).foldl crcBit a ^^^ (x >>> n) := by
  induction n with
  | zero => rfl
  | succ n ih =>
    rw [crcSteps_add n 1, ih, crcSteps_succ, crcSteps_zero, crcStep_xor_eq_crcBit, List.range_succ, List.map_append,
      List.foldl_append, BitVec.getLsbD_ushiftRight, ← BitVec.shiftRight_add]
    rfl

theorem bitsLsbFirst_eq_zext16 (d : Byte) : bitsLsbFirst d = (List.range 8).map (zext16 d).getLsbD := rfl

theorem crcByteBySerial_eq_crcByte (a : Word) (d : Byte) : crcByteBySerial a d = crcByte a d := by
  have hout : zext16 d >>> 8 = 0#16 := by
    apply BitVec.eq_of_getLsbD_eq
    simp [zext16]
  rw [crcByte_eq_steps, crcSteps_xor_eq_foldl_crcBit, hout, BitVec.xor_zero, ← bitsLsbFirst_eq_zext16, crcByteBySerial]

/-- Settles O9: eight bits are taken in, and nothing of the byte is left. -/
theorem bitSerialForm : Obligations.BitSerialForm :=
  ⟨fun _ _ => rfl, fun a d => (crcByteBySerial_eq_crcByte a d).symm, crcByteBySerial_eq_crcByte⟩

end Sys2Proof.Machine
end

section
/-!
PROOFS. The fixed points of a step and of a zero byte (R63; 90_conflicts.md C7).
-/

namespace Sys2Proof.Machine

theorem eq_zero_of_crcStep_eq_self {a : Word} (hlow : a.getLsbD 0 = false) (h : crcStep a = a) : a = 0#16 := by
  have hshift : a >>> 1 = a := (crcStep_of_low_bit_clear hlow).symm.trans h
  have hhalf : a.toNat >>> 1 = a.toNat := by rw [← BitVec.toNat_ushiftRight, hshift]
  apply BitVec.eq_of_toNat_eq
  rw [Nat.shiftRight_eq_div_pow] at hhalf
  simp only [BitVec.toNat_zero]
  omega

/-- An odd fixed point differs from 0xC001 by an even one, which is 0. -/
theorem crcStep_eq_self_iff (a : Word) : crcStep a = a ↔ a = 0x0000#16 ∨ a = 0xC001#16 := by
  refine ⟨fun h => ?_, by rintro (rfl | rfl) <;> rfl⟩
  have hC001 : crcStep 0xC001#16 = 0xC001#16 := rfl
  cases hlow : a.getLsbD 0 with
  | false => exact .inl (eq_zero_of_crcStep_eq_self hlow h)
  | true =>
    refine .inr (BitVec.xor_eq_zero_iff.1 (eq_zero_of_crcStep_eq_self ?_ ?_))
    · rw [BitVec.getLsbD_xor, hlow]; rfl
    · rw [crcStep_xor, h, hC001]

/-- The 256 entries of the table, each put to the one equation that a fixed point's low byte meets. -/
theorem eq_of_crcTable_bytes_xor : ∀ l : Byte, highByte (crcTable l) ^^^ lowByte (crcTable l) = l →
    l = 0x00#8 ∨ l = 0x01#8 := by decide

/-- A fixed point of a zero byte has the high byte of its low byte's table entry, and that fixes the low byte. -/
theorem crcByte_zero_eq_self_iff (a : Word) : crcByte a 0x00#8 = a ↔ a = 0x0000#16 ∨ a = 0xC001#16 := by
  refine ⟨fun h => ?_, by rintro (rfl | rfl) <;> rfl⟩
  rw [crcByte_eq_high_xor_table, BitVec.xor_zero] at h
  have hhigh : highByte (crcTable (lowByte a)) = highByte a := by simpa [highByte_xor] using congrArg highByte h
  have hlow : highByte a ^^^ lowByte (crcTable (lowByte a)) = lowByte a := by
    simpa [lowByte_xor] using congrArg lowByte h
  rw [← hhigh] at hlow
  have ha : a = wordOfBytes (highByte (crcTable (lowByte a))) (lowByte a) := by
    rw [hhigh]; exact (highByte_append_lowByte a).symm
  rw [ha]
  obtain h0 | h1 := eq_of_crcTable_bytes_xor _ hlow
  · rw [h0]; exact .inl rfl
  · rw [h1]; exact .inr rfl

/-- Settles O13: the step by its low bit, the byte by its table form. -/
theorem zeroByteFixedPoints : Obligations.ZeroByteFixedPoints := ⟨crcByte_zero_eq_self_iff, crcStep_eq_self_iff⟩

end Sys2Proof.Machine
end

section
/-!
PROOFS. What an edge that accepts a command leaves, and the clock-level step case by case (R55, R61, R62, R64).
-/

namespace Sys2Proof.Machine

/-- The state that an accepted command leaves (R55). -/
def effect : Instr → State → State
  | .nop _, s => s
  | .init _, s => startMessage s
  | .byte d, s => startByte d s
  | .reserved _, s => raiseIllegalCommand s

theorem exec_eq_next (i : Instr) (s : State) : exec i s = .next (effect i s) := by cases i <;> rfl

/-- A reset edge out of reset leaves `resetDone` as it was, set. -/
theorem applyReset_of_resetDone {s : State} (hr : s.resetDone = true) :
    applyReset s = { s with acc := 0xFFFF#16, err := false, cnt := 0#3 } := by
  rw [applyReset_eq, ← hr]

/-- The clock-level step of R55, in its order. -/
theorem clockEdge_of_resetDone {s : State} (p : Pins) (hr : s.resetDone = true) :
    clockEdge p s = .next (
      if p.rst = true then { s with acc := 0xFFFF#16, err := false, cnt := 0#3 }
      else if s.cnt ≠ 0#3 then continueByte s
      else if p.cmdValid = true then effect (decode p.cmd) (noteAccepted s)
      else s) := by
  split_ifs with hrst hc hv
  · rw [clockEdge_reset s hrst, applyReset_of_resetDone hr]
  · exact clockEdge_busy (Bool.eq_false_iff.2 hrst) hr hc
  · rw [clockEdge_accept (Bool.eq_false_iff.2 hrst) hr (not_not.1 hc) hv, exec_eq_next]
  · exact clockEdge_idle (Bool.eq_false_iff.2 hrst) hr (not_not.1 hc) (Bool.eq_false_iff.2 hv)

/-- The word on the port acts by its fields (R45, R55). -/
theorem effect_decode_cmd (p : Pins) (s : State) :
    effect (decode p.cmd) s =
      if p.cmdOp = 0b00#2 then s
      else if p.cmdOp = 0b01#2 then startMessage s
      else if p.cmdOp = 0b10#2 then startByte p.cmdData s
      else raiseIllegalCommand s := by
  obtain ⟨hop, hdata⟩ := Laws.WordFields.fields_of_cmdWord p.cmdOp p.cmdData
  rw [Pins.cmd, decode, hop, hdata]
  split_ifs <;> rfl

/-- Settles O25: the cases of the clock edge, and at an accepting one those of the op. -/
theorem clockStep : Obligations.ClockStep := by
  intro s p rest hr hs
  rw [step_edge hs, clockEdge_of_resetDone (s := s.setScript rest) p hr, effect_decode_cmd]
  rfl

/-- Settles O20: the accepting edge as `startByte` has it, the later ones as the clock edge's first two cases. -/
theorem byteSchedule : Obligations.ByteSchedule := by
  refine ⟨fun _ _ => rfl, fun s p rest hr hc hs => ?later, fun d s h8 => ?default, rfl⟩
  case later =>
    have hbusy : (s.setScript rest).cnt ≠ 0#3 := hc
    rw [step_edge hs, clockEdge_of_resetDone (s := s.setScript rest) p hr, if_pos hbusy]
    rfl
  case default =>
    rw [exec_byte, startByte_eq, h8]
    rfl

/-- An edge that presents a word to a ready block (R49). -/
theorem step_command_of_ready {s : State} {w : CmdWord} {rest : List Input} (h : s.Ready)
    (hs : s.script = .edge (Pins.command w) :: rest) :
    step s = exec (decode w) (noteAccepted (s.setScript rest)) := by
  rw [step_edge_of_accepts h.1 (accepts_command_of_ready w h) hs, Pins.command_cmd]

/-- Settles O18: NOP's arm is the state itself. -/
theorem nopDoesNothing : Obligations.NopDoesNothing := by
  refine ⟨exec_nop, fun data => decode_encode (.nop data), by decide, rfl, fun s data rest h hs => ?_⟩
  have hstep : step s = .next (noteAccepted (s.setScript rest)) := by
    rw [step_command_of_ready h hs, decode_encode, exec_nop]
  exact ⟨_, hstep, rfl, h⟩

/-- Settles O19: INIT's arm writes `acc` alone, and always the same value. -/
theorem initStartsMessage : Obligations.InitStartsMessage := by
  refine ⟨exec_init, fun data data' s t ht => ?idempotent, fun data => decode_encode (.init data), by decide, rfl,
    fun s data rest h hs => ?edge⟩
  case idempotent => cases ht; rfl
  case edge =>
    have hstep : step s = .next (startMessage (noteAccepted (s.setScript rest))) := by
      rw [step_command_of_ready h hs, decode_encode, exec_init]
    exact ⟨_, hstep, h, rfl⟩

end Sys2Proof.Machine
end

section
/-!
PROOFS. A message and its check bytes (R59, R70, R73).
-/

namespace Sys2Proof.Machine

/-- Settles O15: no byte, and no final XOR. -/
theorem emptyMessageChecksum : Obligations.EmptyMessageChecksum := crc16_eq_absorb []

/-- The request's payload (R35, R70). -/
def requestBytes : List Byte := requestPayload 0x01#8 0x03#8 0x0042#16 0x0002#16

theorem crc16_requestBytes : crc16 requestBytes = 0x1F64#16 := by decide +kernel

theorem frameOf_requestBytes : frameOf requestBytes = requestBytes ++ [0x64, 0x1F] := by
  rw [frameOf, crc16_requestBytes]; rfl

/-- Settles O17: the payload's six bytes absorbed, and the bytes of the checksum. -/
theorem requestFrame : Obligations.RequestFrame := ⟨rfl, crc16_requestBytes, rfl, frameOf_requestBytes⟩

theorem absorb_checkBytes (c : Word) : absorb c (checkBytes c) = 0#16 := by
  rw [checkBytes, absorb_cons, absorb_cons, absorb_nil, crcByte_own_low, crcByte_zext16_self]

/-- R73: a message's accumulator absorbs its own check bytes. -/
theorem crc16_frameOf (m : List Byte) : crc16 (frameOf m) = 0#16 := by
  rw [frameOf, crc16_eq_absorb, absorb_append, ← crc16_eq_absorb, absorb_checkBytes]

end Sys2Proof.Machine
end

section
/-!
PROOFS. The transaction-level machine (R56): what a run of its steps comes to.
-/

namespace Sys2Proof.Machine

/-- `transact` op by op (R56). -/
theorem transact_cmdWord (a : Arch) (data : Byte) :
    transact a (cmdWord 0b00#2 data) = a ∧
    transact a (cmdWord 0b01#2 data) = { a with acc := 0xFFFF#16 } ∧
    transact a (cmdWord 0b10#2 data) = { a with acc := crcByte a.acc data } ∧
    transact a (cmdWord 0b11#2 data) = { a with err := true, illegalCommand := true } := by
  simp [transact, Laws.WordFields.fields_of_cmdWord, crcInit]

theorem transact_initWord (a : Arch) : transact a initWord = { a with acc := 0xFFFF#16 } :=
  (transact_cmdWord a 0x00#8).2.1

theorem transact_byteWord (a : Arch) (d : Byte) : transact a (byteWord d) = { a with acc := crcByte a.acc d } :=
  (transact_cmdWord a d).2.2.1

theorem transact_of_isNopWord {w : CmdWord} (a : Arch) (h : isNopWord w = true) : transact a w = a :=
  if_pos (eq_of_beq h)

/-- NOPs contribute nothing (R58, R61). -/
theorem foldl_transact_filter_nop (a : Arch) (ws : List CmdWord) :
    (ws.filter fun w => !isNopWord w).foldl transact a = ws.foldl transact a := by
  have hskip : (fun a w => if (!isNopWord w) = true then transact a w else a) = transact := by
    funext a w
    cases h : isNopWord w with
    | true => exact (transact_of_isNopWord a h).symm
    | false => rfl
  rw [List.foldl_filter, hskip]

/-- The words of a message's bytes absorb them (R57). -/
theorem foldl_transact_byteWords (a : Arch) (m : List Byte) :
    (m.map byteWord).foldl transact a = { a with acc := absorb a.acc m } := by
  induction m generalizing a with
  | nil => rfl
  | cons d m ih => rw [List.map_cons, List.foldl_cons, transact_byteWord, ih, absorb_cons]

/-- With the INIT in front, from any `acc` (R57). -/
theorem foldl_transact_crcWords (a : Arch) (m : List Byte) :
    (crcWords m).foldl transact a = { a with acc := crc16 m } := by
  rw [crcWords, List.foldl_cons, transact_initWord, foldl_transact_byteWords, ← crc16_eq_absorb]

theorem commandCycles_byteWord (p : BitsPerCycle) (d : Byte) : commandCycles p (byteWord d) = byteCycles p :=
  if_pos (Laws.WordFields.byte d).1

/-- The cycles of R111 for a message's bytes. -/
theorem runCycles_byteWords (p : BitsPerCycle) (m : List Byte) :
    runCycles p (m.map byteWord) = m.length * byteCycles p := by
  simp [runCycles, Function.comp_def, commandCycles_byteWord]

theorem runCycles_crcWords (p : BitsPerCycle) (m : List Byte) :
    runCycles p (crcWords m) = 1 + m.length * byteCycles p := by
  rw [← runCycles_byteWords]
  rfl

end Sys2Proof.Machine
end

section
/-!
PROOFS. The clock-level machine refines the transaction-level one (R56). The idea: a busy block is on its way to
one observation, which each edge of the BYTE keeps.
-/

namespace Sys2Proof.Machine

/-- The observation of a state once the BYTE in progress, if any, is over (R21, R114). -/
def State.settled (s : State) : Arch := (s.finishByte s.cnt.toNat s.script).arch

theorem settled_of_idle {s : State} (h : s.cnt = 0#3) : s.settled = s.arch := by
  have hn : s.cnt.toNat = 0 := congrArg BitVec.toNat h
  rw [State.settled, hn, finishByte_zero h rfl]

/-- An edge of the BYTE in progress keeps what the block is on its way to. -/
theorem settled_continueByte {s : State} (h : s.cnt ≠ 0#3) : (continueByte s).settled = s.settled := by
  have hn : (continueByte s).cnt.toNat + 1 = s.cnt.toNat := by
    change (s.cnt - 1#3).toNat + 1 = s.cnt.toNat
    bv_omega
  have hfinish := continueByte_finishByte s s.script s.script (continueByte s).cnt.toNat
  rw [hn] at hfinish
  exact congrArg State.arch hfinish

theorem settled_startByte (d : Byte) (s : State) :
    (startByte d s).settled = { s.arch with acc := crcByte s.acc d } := by
  have hn : byteCycles s.bitsPerCycle - 1 + 1 = byteCycles s.bitsPerCycle :=
    Nat.sub_add_cancel (byteCycles_pos s.bitsPerCycle)
  have hcnt : (startByte d s).cnt.toNat = byteCycles s.bitsPerCycle - 1 := toNat_firstCnt s.bitsPerCycle
  rw [State.settled, hcnt, ← crcSteps_firstCycle_then_rest hn]
  rfl

/-- A command accepted by a ready block sets it on its way to what `transact` gives (R56). -/
theorem settled_effect {s : State} (i : Instr) (h : s.cnt = 0#3) :
    (effect i s).settled = transact s.arch (encode i) := by
  cases i with
  | nop data => exact (settled_of_idle h).trans (transact_cmdWord s.arch data).1.symm
  | init data => exact (settled_of_idle (s := startMessage s) h).trans (transact_cmdWord s.arch data).2.1.symm
  | byte d => exact (settled_startByte d s).trans (transact_byteWord s.arch d).symm
  | reserved data =>
    exact (settled_of_idle (s := raiseIllegalCommand s) h).trans (transact_cmdWord s.arch data).2.2.2.symm

/-- What a command leaves of the fields that are not the block's registers. -/
theorem effect_frame (i : Instr) (s : State) :
    (effect i s).script = s.script ∧ (effect i s).cmdIndex = s.cmdIndex ∧
    (effect i s).bitsPerCycle = s.bitsPerCycle ∧ (effect i s).resetDone = s.resetDone := by
  cases i <;> exact ⟨rfl, rfl, rfl, rfl⟩

/-- The accepting edge and the cycles that `cnt` then asks for are those of R111. -/
theorem cnt_effect_add_one {s : State} (i : Instr) (h : s.cnt = 0#3) :
    (effect i s).cnt.toNat + 1 = commandCycles s.bitsPerCycle (encode i) := by
  have hidle : s.cnt.toNat + 1 = 1 := by rw [h]; rfl
  cases i with
  | nop data => rw [commandCycles, (Laws.WordFields.nop data).1]; exact hidle
  | init data => rw [commandCycles, (Laws.WordFields.init data).1]; exact hidle
  | byte d =>
    rw [commandCycles, (Laws.WordFields.byte d).1]
    exact (congrArg (· + 1) (toNat_firstCnt s.bitsPerCycle)).trans (Nat.sub_add_cancel (byteCycles_pos _))
  | reserved data => rw [commandCycles, (Laws.WordFields.reserved data).1]; exact hidle

/-- What the host does next is nothing that a busy block could lose: it holds a word, waits, or is done (R104, R106). -/
def State.Holds (s : State) : Prop := ∀ x ∈ s.script.head?, x.patient = true

theorem holds_of_patient {s : State} (h : ∀ x ∈ s.script, x.patient = true) : s.Holds := fun x hx =>
  h x (List.mem_of_mem_head? hx)

theorem holds_of_nil {s : State} (h : s.script = []) : s.Holds := by
  simp [State.Holds, h]

theorem holds_of_cons {s : State} {x : Input} {rest : List Input} (hs : s.script = x :: rest)
    (hx : x.patient = true) : s.Holds := by
  simpa [State.Holds, hs] using hx

/-- A busy block, the host holding, makes one more cycle of its BYTE (R49, R64, R106). -/
theorem step_busy_of_holds {s : State} (hr : s.resetDone = true) (hc : s.cnt ≠ 0#3) (hh : s.Holds) :
    step s = .next (continueByte s) := by
  match hs : s.script with
  | [] => rw [step_nil hs]; exact clockEdge_busy rfl hr hc
  | .edge p :: rest => simp [State.Holds, hs, Input.patient] at hh
  | .noEdge p :: rest => simp [State.Holds, hs, Input.patient] at hh
  | .offer w :: rest =>
    have ha : accepts (Pins.command w) s = false := Bool.eq_false_iff.2 fun ha => hc ((accepts_iff _ _).1 ha).2.2
    rw [step_offer_held hs ha]
    exact clockEdge_busy rfl hr hc
  | .wait :: rest =>
    have hready : s.cmdReady = false := by simp [State.cmdReady, cmdReadyOf, hc]
    rw [step_wait_busy hs hready]
    exact clockEdge_busy rfl hr hc
  | .powerLoss :: rest => simp [State.Holds, hs, Input.patient] at hh

/-- Held so, the BYTE in progress comes to its end, and the host's list stands (R21). -/
theorem runSteps_finishByte_of_holds {s : State} {n : Nat} (hr : s.resetDone = true) (hc : s.cnt.toNat = n)
    (hh : s.Holds) : runSteps n s = .next (s.finishByte n s.script) := by
  induction n generalizing s with
  | zero =>
    have hc0 : s.cnt = 0#3 := BitVec.eq_of_toNat_eq hc
    exact congrArg Host.Outcome.next (finishByte_zero hc0 rfl).symm
  | succ n ih =>
    have hc0 : s.cnt ≠ 0#3 := by intro h; simp [h] at hc
    have hcnt : (s.cnt - 1#3).toNat = n := by bv_omega
    rw [runSteps_succ_of_step _ (step_busy_of_holds hr hc0 hh), ih (s := continueByte s) hr hcnt hh]
    exact congrArg Host.Outcome.next (continueByte_finishByte s s.script s.script n)

/-- The state right after a ready block has accepted a word that the host offered. -/
def State.afterAccepting (s : State) (w : CmdWord) (rest : List Input) : State :=
  effect (decode w) (noteAccepted (s.setScript rest))

theorem step_offer_afterAccepting {s : State} {w : CmdWord} {rest : List Input} (h : s.Ready)
    (hs : s.script = .offer w :: rest) : step s = .next (s.afterAccepting w rest) :=
  (step_offer_of_ready h hs).trans (exec_eq_next _ _)

theorem settled_afterAccepting {s : State} (w : CmdWord) (rest : List Input) (h : s.cnt = 0#3) :
    (s.afterAccepting w rest).settled = transact s.arch w := by
  have hsettled := settled_effect (s := noteAccepted (s.setScript rest)) (decode w) h
  rwa [encode_decode] at hsettled

/-- `t` is where these words lead a ready block from `s`, with this rest of the host's list: the fold of R56, the index of
R16, and a block that is ready again. -/
structure AfterWords (s : State) (ws : List CmdWord) (rest : List Input) (t : State) : Prop where
  arch : t.arch = ws.foldl transact s.arch
  ready : t.Ready
  script : t.script = rest
  cmdIndex : t.cmdIndex = s.cmdIndex + ws.length
  bitsPerCycle : t.bitsPerCycle = s.bitsPerCycle

theorem AfterWords.cons {s u t : State} {w : CmdWord} {ws : List CmdWord} {rest mid : List Input}
    (hu : AfterWords s [w] mid u) (ht : AfterWords u ws rest t) : AfterWords s (w :: ws) rest t where
  arch := by rw [ht.arch, hu.arch]; rfl
  ready := ht.ready
  script := ht.script
  cmdIndex := by rw [ht.cmdIndex, hu.cmdIndex, List.length_singleton, List.length_cons]; omega
  bitsPerCycle := ht.bitsPerCycle.trans hu.bitsPerCycle

/-- One offered word: its accepting edge, then the cycles it still needs (R56, R111). -/
theorem runSteps_offer {s : State} {w : CmdWord} {rest : List Input} (h : s.Ready)
    (hrest : ∀ x ∈ rest, x.patient = true) (hs : s.script = .offer w :: rest) :
    ∃ t, runSteps (commandCycles s.bitsPerCycle w) s = .next t ∧ AfterWords s [w] rest t := by
  obtain ⟨hscript, hindex, hbits, hreset⟩ := effect_frame (decode w) (noteAccepted (s.setScript rest))
  have hcycles : (s.afterAccepting w rest).cnt.toNat + 1 = commandCycles s.bitsPerCycle w := by
    have hcnt := cnt_effect_add_one (s := noteAccepted (s.setScript rest)) (decode w) h.2
    rwa [encode_decode] at hcnt
  have hrun := runSteps_finishByte_of_holds (s := s.afterAccepting w rest) (hreset.trans h.1) rfl
    (holds_of_patient (by rw [State.afterAccepting, hscript]; exact hrest))
  refine ⟨_, by rw [← hcycles, runSteps_succ_of_step _ (step_offer_afterAccepting h hs), hrun], ?_⟩
  exact ⟨settled_afterAccepting w rest h.2, ⟨hreset.trans h.1, rfl⟩, hscript, hindex, hbits⟩

theorem runSteps_offers {s : State} {ws : List CmdWord} {rest : List Input} (h : s.Ready)
    (hrest : ∀ x ∈ rest, x.patient = true) (hs : s.script = ws.map .offer ++ rest) :
    ∃ t, runSteps (runCycles s.bitsPerCycle ws) s = .next t ∧ AfterWords s ws rest t := by
  induction ws generalizing s with
  | nil => exact ⟨s, rfl, rfl, h, hs, rfl, rfl⟩
  | cons w ws ih =>
    have hoffers : ∀ x ∈ ws.map Input.offer ++ rest, x.patient = true := by
      simpa [or_imp, forall_and, Input.patient] using hrest
    obtain ⟨u, hsu, hu⟩ := runSteps_offer h hoffers hs
    obtain ⟨t, hut, ht⟩ := ih hu.ready hu.script
    rw [hu.bitsPerCycle] at hut
    exact ⟨t, (runSteps_add _ hsu).trans hut, hu.cons ht⟩

/-- Settles O41: an induction on the words, each taken by its accepting edge and the cycles that finish it. -/
theorem clockLevelRefinesTransactions : Obligations.ClockLevelRefinesTransactions := by
  refine ⟨transact_cmdWord, fun s ws rest h hrest hs => ?_⟩
  obtain ⟨t, hrun, ht⟩ := runSteps_offers h hrest hs
  exact ⟨t, hrun, ht.arch, ht.ready, ht.script, ht.cmdIndex, ht.bitsPerCycle⟩

end Sys2Proof.Machine
end

section
/-!
PROOFS. Messages: what the block holds and shows after one (R57, R71, R73).
-/

namespace Sys2Proof.Machine

/-- The registers of a state whose observation is known up to `acc` (R114). -/
theorem registers_of_arch {s t : State} {v : Word} (h : t.arch = { s.arch with acc := v }) :
    t.acc = v ∧ t.err = s.err ∧ t.illegalCommand = s.illegalCommand :=
  ⟨congrArg Arch.acc h, congrArg Arch.err h, congrArg Arch.illegalCommand h⟩

/-- Settles O42: the fold of `transact` over a message's words is `crc16`. -/
theorem messageContract : Obligations.MessageContract := by
  refine ⟨fun s m rest h hrest hs => ?withInit, fun s m rest h hacc hrest hs => ?withoutInit⟩
  case withInit =>
    obtain ⟨t, hrun, ht⟩ := runSteps_offers h hrest hs
    rw [runCycles_crcWords] at hrun
    obtain ⟨hacc, herr, hill⟩ := registers_of_arch (ht.arch.trans (foldl_transact_crcWords _ m))
    exact ⟨t, hrun, ht.ready, ht.script, hacc, (crc_of_idle ht.ready.2).trans hacc, herr, hill⟩
  case withoutInit =>
    obtain ⟨t, hrun, ht⟩ := runSteps_offers h hrest hs
    rw [runCycles_byteWords] at hrun
    obtain ⟨hacc', herr, -⟩ := registers_of_arch (ht.arch.trans (foldl_transact_byteWords _ m))
    have hcrc : absorb s.acc m = crc16 m := by rw [hacc, crc16_eq_absorb]
    exact ⟨t, hrun, ht.ready, ht.script, hacc'.trans hcrc, herr⟩

/-- The list exhausted and the block idle: the run is over (R114). -/
theorem runOver_of_idle {t : State} (hs : t.script = []) (hc : t.cnt = 0#3) : t.runOver = true := by
  simp [State.runOver, State.cmdReady, pins_of_nil hs, hs, hc, cmdReadyOf, Pins.idle]

/-- A host that offers a message's words and nothing more reads its checksum when the run is over (R57, R114). -/
theorem runSteps_crcWords_over {s : State} {m : List Byte} (h : s.Ready) (hs : s.script = (crcWords m).map .offer) :
    ∃ t, runSteps (1 + m.length * byteCycles s.bitsPerCycle) s = .next t ∧ t.runOver = true ∧ t.crc = crc16 m := by
  obtain ⟨t, hrun, hready, hscript, -, hcrc, -, -⟩ :=
    messageContract.1 s m [] h (fun _ hx => nomatch hx) (by rw [hs, List.append_nil])
  exact ⟨t, hrun, runOver_of_idle hscript hready.2, hcrc⟩

/-- Settles O12: the check bytes are absorbed, and the host reads the frame's checksum on `crc`. -/
theorem residueIsZero : Obligations.ResidueIsZero := by
  refine ⟨fun m => ⟨crc16_frameOf m, beq_iff_eq.2 (crc16_frameOf m)⟩, fun s m h hs => ?_⟩
  obtain ⟨t, hrun, hover, hcrc⟩ := runSteps_crcWords_over h hs
  have hlen : (frameOf m).length = m.length + 2 := List.length_append
  rw [hlen] at hrun
  exact ⟨t, hrun, hover, hcrc.trans (crc16_frameOf m)⟩

/-- Settles O46: what `crc` shows is the request's checksum, whatever the block did before. -/
theorem requestFrameEveryTime : Obligations.RequestFrameEveryTime := by
  intro s h hs
  obtain ⟨t, hrun, hover, hcrc⟩ := runSteps_crcWords_over (m := requestBytes) h hs
  rw [crc16_requestBytes] at hcrc
  refine ⟨t, hrun, hover, ?_⟩
  rw [State.crcLo, State.crcHi, hcrc]
  rfl

end Sys2Proof.Machine
end

section
/-!
PROOFS. The checksum does not depend on the timing (R58): each input of a quiet host keeps what the block is on its way to,
or puts one word to it.
-/

namespace Sys2Proof.Machine

/-- Some number of steps leads from `s` to `t`. -/
def Reaches (s t : State) : Prop := ∃ k, runSteps k s = .next t

theorem Reaches.trans {s t u : State} (hst : Reaches s t) (htu : Reaches t u) : Reaches s u := by
  obtain ⟨j, hj⟩ := hst
  obtain ⟨k, hk⟩ := htu
  exact ⟨j + k, (runSteps_add k hj).trans hk⟩

theorem reaches_of_step {s t : State} (h : step s = .next t) : Reaches s t := ⟨1, runSteps_succ_of_step 0 h⟩

/-- The host holding, a block out of reset comes to rest where it was on its way to. -/
theorem reaches_ready_of_holds {s : State} (hr : s.resetDone = true) (hh : s.Holds) :
    ∃ t, Reaches s t ∧ t.Ready ∧ t.script = s.script ∧ t.settled = s.settled :=
  ⟨_, ⟨_, runSteps_finishByte_of_holds hr rfl hh⟩, ⟨hr, rfl⟩, rfl, settled_of_idle rfl⟩

/-- An edge at which the host presents nothing keeps what the block is on its way to. -/
theorem step_quiet_edge {s : State} {p : Pins} {rest : List Input} (hr : s.resetDone = true)
    (hp : (Input.edge p).quiet = true) (hs : s.script = .edge p :: rest) :
    ∃ t, step s = .next t ∧ t.resetDone = true ∧ t.script = rest ∧ t.settled = s.settled := by
  obtain ⟨hrst, hv⟩ : p.rst = false ∧ p.cmdValid = false := by simpa [Input.quiet] using hp
  by_cases hc : s.cnt = 0#3
  · exact ⟨_, (step_edge hs).trans (clockEdge_idle hrst hr hc hv), hr, rfl, rfl⟩
  · exact ⟨_, step_busy hr hc hrst hs, hr, rfl, settled_continueByte (s := s.setScript rest) hc⟩

/-- One input of a quiet host, done: the words it offers, at most one, are put to what the block was on its way to. -/
theorem reaches_rest_of_quiet {s : State} {x : Input} {rest : List Input} (hr : s.resetDone = true)
    (hx : x.quiet = true) (hs : s.script = x :: rest) :
    ∃ t, Reaches s t ∧ t.resetDone = true ∧ t.script = rest ∧
      t.settled = (offeredWords [x]).foldl transact s.settled := by
  cases x with
  | edge p =>
    obtain ⟨t, hst, hrt, hts, hsettled⟩ := step_quiet_edge hr hx hs
    exact ⟨t, reaches_of_step hst, hrt, hts, hsettled⟩
  | noEdge p => exact ⟨_, reaches_of_step (step_noEdge hs), hr, rfl, rfl⟩
  | offer w =>
    obtain ⟨u, hsu, hready, hus, hsettled⟩ := reaches_ready_of_holds hr (holds_of_cons hs rfl)
    have hstep := step_offer_afterAccepting hready (hus.trans hs)
    obtain ⟨hscript, -, -, hreset⟩ := effect_frame (decode w) (noteAccepted (u.setScript rest))
    refine ⟨_, hsu.trans (reaches_of_step hstep), hreset.trans hready.1, hscript, ?_⟩
    rw [settled_afterAccepting w rest hready.2, ← settled_of_idle hready.2, hsettled]
    rfl
  | wait =>
    obtain ⟨u, hsu, hready, hus, hsettled⟩ := reaches_ready_of_holds hr (holds_of_cons hs rfl)
    have hcmdReady : u.cmdReady = true := by
      simp [State.cmdReady, pins_of_cons (hus.trans hs), hready.2, cmdReadyOf, Input.pins, Pins.idle]
    exact ⟨_, hsu.trans (reaches_of_step (step_wait_over (hus.trans hs) hcmdReady)), hready.1, rfl, hsettled⟩
  | powerLoss => cases hx

theorem offeredWords_cons (x : Input) (xs : List Input) :
    offeredWords (x :: xs) = offeredWords [x] ++ offeredWords xs := by
  cases x <;> rfl

/-- A quiet host's whole list: the block comes to rest with the words it offered put to it one by one, whatever lies between
them (R56, R58). -/
theorem reaches_end_of_quiet {s : State} {xs : List Input} (hr : s.resetDone = true) (hq : ∀ x ∈ xs, x.quiet = true)
    (hs : s.script = xs) :
    ∃ t, Reaches s t ∧ t.Ready ∧ t.script = [] ∧ t.settled = (offeredWords xs).foldl transact s.settled := by
  induction xs generalizing s with
  | nil =>
    obtain ⟨t, hst, hready, hscript, hsettled⟩ := reaches_ready_of_holds hr (holds_of_nil hs)
    exact ⟨t, hst, hready, hscript.trans hs, hsettled⟩
  | cons x xs ih =>
    obtain ⟨hx, hxs⟩ := List.forall_mem_cons.1 hq
    obtain ⟨u, hsu, hru, hus, husettled⟩ := reaches_rest_of_quiet hr hx hs
    obtain ⟨t, hut, hready, hscript, hsettled⟩ := ih hru hxs hus
    refine ⟨t, hsu.trans hut, hready, hscript, ?_⟩
    rw [hsettled, husettled, offeredWords_cons x xs, List.foldl_append]

/-- Settles O44: the words offered are the message's but for NOPs, and neither these nor the time between them counts. -/
theorem checksumIndependentOfTiming : Obligations.ChecksumIndependentOfTiming := by
  intro s m h hq hwords
  obtain ⟨t, ⟨k, hrun⟩, hready, hscript, hsettled⟩ := reaches_end_of_quiet h.1 hq rfl
  have harch : t.arch = { s.arch with acc := crc16 m } :=
    calc t.arch
      _ = (offeredWords s.script).foldl transact s.arch := by
        rw [← settled_of_idle hready.2, hsettled, settled_of_idle h.2]
      _ = { s.arch with acc := crc16 m } := by rw [← foldl_transact_filter_nop, hwords, foldl_transact_crcWords]
  obtain ⟨hacc, herr, -⟩ := registers_of_arch harch
  exact ⟨k, t, hrun, runOver_of_idle hscript hready.2, hready, hacc, herr⟩

end Sys2Proof.Machine
end

section
/-!
PROOFS. What IllegalCommand leaves behind (R85, R87, R88): the record and `err`, and an accumulator to which the reserved
words contribute nothing.
-/

namespace Sys2Proof.Machine

/-! The record. -/

/-- The record of an IllegalCommand is never cleared (R88; log 6). -/
theorem step_keeps_illegalCommand {s t : State} (h : step s = .next t) (hi : s.illegalCommand = true) :
    t.illegalCommand = true := by
  cases stepEffect_of_step h with
  | reserved => rfl
  | quiet | reset | unspecified | busy | nop | init | byte | powerLoss => exact hi

/-- The step of a ready block at an edge that presents a reserved word (R88). -/
theorem step_reserved_of_ready {s : State} {data : Byte} {rest : List Input} (h : s.Ready)
    (hs : s.script = .edge (Pins.command (encode (.reserved data))) :: rest) :
    step s = .next (raiseIllegalCommand (noteAccepted (s.setScript rest))) := by
  rw [step_command_of_ready h hs, decode_encode, exec_reserved]

/-- Settles O22: the reserved word's arm leaves `cnt` at 0, so that the next edge accepts. -/
theorem reservedRaisesIllegalCommand : Obligations.ReservedRaisesIllegalCommand := by
  refine ⟨exec_reserved, fun _ _ => step_keeps_illegalCommand, fun s data p rest h hrst hv hs => ?_⟩
  have ha : accepts p s = true := (accepts_iff p s).2 ⟨hrst, hv, h.2⟩
  exact ⟨_, step_reserved_of_ready h hs, h,
    step_edge_of_accepts (s := raiseIllegalCommand (noteAccepted (s.setScript (.edge p :: rest)))) h.1 ha rfl⟩

/-! The words of a run, the reserved ones among them. -/

/-- Whether the word is a reserved one (R47, R51). -/
def isReservedWord (w : CmdWord) : Bool := cmdOpOf w == 0b11#2

theorem transact_of_isReservedWord {w : CmdWord} (a : Arch) (h : isReservedWord w = true) :
    transact a w = { a with err := true, illegalCommand := true } := by
  rw [eq_cmdWord_of_op (eq_of_beq h)]
  exact (transact_cmdWord a _).2.2.2

/-- A legal word leaves `err` (R17). -/
theorem transact_err_of_legal {w : CmdWord} (a : Arch) (h : isReservedWord w = false) :
    (transact a w).err = a.err := by
  unfold transact
  split_ifs with h0 h1 h2
  · rfl
  · rfl
  · rfl
  · exact absurd (op_eq_three h0 h1 h2) (ne_of_beq_false h)

theorem transact_err (a : Arch) (w : CmdWord) : (transact a w).err = (a.err || isReservedWord w) := by
  cases h : isReservedWord w with
  | true => rw [transact_of_isReservedWord a h, Bool.or_true]
  | false => rw [transact_err_of_legal a h, Bool.or_false]

/-- `err` tells whether a reserved word was accepted (R87). -/
theorem foldl_transact_err (a : Arch) (ws : List CmdWord) :
    (ws.foldl transact a).err = (a.err || ws.any isReservedWord) := by
  induction ws generalizing a with
  | nil => exact (Bool.or_false _).symm
  | cons w ws ih => rw [List.foldl_cons, ih, transact_err, List.any_cons, Bool.or_assoc]

/-- What a command makes of `acc` does not depend on `err` or the record (R17, R56). -/
theorem transact_acc_congr {a b : Arch} (w : CmdWord) (h : a.acc = b.acc) :
    (transact a w).acc = (transact b w).acc := by
  unfold transact
  split_ifs
  · exact h
  · rfl
  · exact congrArg (crcByte · (cmdDataOf w)) h
  · exact h

/-- The reserved words contribute nothing to `acc` (R85). -/
theorem foldl_transact_filter_reserved_acc {a b : Arch} (ws : List CmdWord) (h : a.acc = b.acc) :
    ((ws.filter fun w => !isReservedWord w).foldl transact a).acc = (ws.foldl transact b).acc := by
  induction ws generalizing a b with
  | nil => exact h
  | cons w ws ih =>
    cases hw : isReservedWord w with
    | true =>
      rw [List.filter_cons_of_neg (by simp [hw]), List.foldl_cons, transact_of_isReservedWord b hw]
      exact ih h
    | false =>
      rw [List.filter_cons_of_pos (by simp [hw]), List.foldl_cons, List.foldl_cons]
      exact ih (transact_acc_congr w h)

/-- Settles O45: the run is the fold of `transact`, in which a reserved word sets `err` and leaves `acc`. -/
theorem illegalWordsLeftOut : Obligations.IllegalWordsLeftOut := by
  intro s ws rest h hrest hs
  obtain ⟨t, hrun, ht⟩ := runSteps_offers h hrest hs
  refine ⟨t, hrun, ht.ready, ?_, ?_⟩
  · exact (congrArg Arch.acc ht.arch).trans (foldl_transact_filter_reserved_acc ws rfl).symm
  · exact (congrArg Arch.err ht.arch).trans (foldl_transact_err s.arch ws)

end Sys2Proof.Machine
end

section
/-!
PROOFS. Where a step answers a next state and where it is refused (R23, R77, R84, R96, R101).
-/

namespace Sys2Proof.Machine

/-- The one refusal of a clock edge (R23; log 7). -/
theorem clockEdge_refused {p : Pins} {s : State} {r : Refusal} (h : clockEdge p s = .refused r) :
    r = .beforeReset ∧ s.resetDone = false ∧ p.rst = false ∧ p.cmdValid = true := by
  cases hr : s.resetDone with
  | true => rw [clockEdge_of_resetDone p hr] at h; cases h
  | false =>
    cases hrst : p.rst with
    | true => rw [clockEdge_reset s hrst] at h; cases h
    | false =>
      cases hv : p.cmdValid with
      | true => rw [clockEdge_command_before_reset hrst hr hv] at h; cases h; exact ⟨rfl, rfl, rfl, rfl⟩
      | false => rw [clockEdge_idle_before_reset hrst hr hv] at h; cases h

/-- A step is refused at a clock edge only. -/
theorem step_refused {s : State} {r : Refusal} (h : step s = .refused r) :
    r = .beforeReset ∧ s.resetDone = false ∧ s.pins.rst = false ∧ s.pins.cmdValid = true := by
  obtain ⟨rest, he⟩ | ⟨rest, he⟩ | ⟨rest, -, he⟩ := step_cases s
  · exact clockEdge_refused (s := s.setScript rest) (he.symm.trans h)
  · cases he.symm.trans h
  · cases he.symm.trans h

/-- Out of reset there is no refusal, and a fault there never is (R77, R84). -/
theorem step_next_of_resetDone {s : State} (hr : s.resetDone = true) : ∃ t, step s = .next t := by
  cases h : step s with
  | next t => exact ⟨t, rfl⟩
  | fault f => cases f
  | refused r =>
    obtain ⟨-, hn, -⟩ := step_refused h
    cases hr.symm.trans hn

/-- Settles O32: every command has an effect, no fault exists, and an edge before the first reset edge is all that refuses. -/
theorem stepNeverStops : Obligations.StepNeverStops :=
  ⟨fun i s => ⟨_, exec_eq_next i s⟩, fun _ f => (nomatch f), fun _ => step_next_of_resetDone,
    fun _ _ => step_refused⟩

/-- Before the first reset edge an offered word is refused, whether `cmd_ready` is 1 or not (R23; log 7). -/
theorem step_offer_before_reset {s : State} {w : CmdWord} {rest : List Input} (hr : s.resetDone = false)
    (hs : s.script = .offer w :: rest) : step s = .refused .beforeReset := by
  cases ha : accepts (Pins.command w) s with
  | true => rw [step_offer_accepted hs ha]; exact clockEdge_command_before_reset rfl hr rfl
  | false => rw [step_offer_held hs ha]; exact clockEdge_command_before_reset rfl hr rfl

/-- Settles O31: the clock edge's refusal, and the reset edge after the loss of power. -/
theorem beforeTheFirstReset : Obligations.BeforeTheFirstReset := by
  refine ⟨fun s p rest hr hrst hv hs => ?edge, fun s w rest => step_offer_before_reset,
    fun s p rest hrst hs => ?power⟩
  case edge =>
    rw [step_edge hs]
    exact clockEdge_command_before_reset (s := s.setScript rest) hrst hr hv
  case power =>
    have hreset : step (losePower (s.setScript (.edge p :: rest))) =
        .next (applyReset ((losePower (s.setScript (.edge p :: rest))).setScript rest)) := by
      rw [step_edge rfl, clockEdge_reset _ hrst]
    exact ⟨_, _, step_powerLoss hs, rfl, hreset, ⟨rfl, rfl⟩, rfl, rfl, rfl, rfl, rfl, rfl⟩

end Sys2Proof.Machine
end

section
/-!
PROOFS. The reset edge, `rst` held, and the edge after it (R22, R97, R99, R100).
-/

namespace Sys2Proof.Machine

/-- The step at a reset edge (R97). -/
theorem step_reset {s : State} {p : Pins} {rest : List Input} (hp : p.rst = true) (hs : s.script = .edge p :: rest) :
    step s = .next (applyReset (s.setScript rest)) :=
  (step_edge hs).trans (clockEdge_reset _ hp)

/-- `cmd_ready` is 0 while `rst` is held (R18, R99). -/
theorem cmdReady_of_rst {s : State} {p : Pins} {rest : List Input} (hp : p.rst = true)
    (hs : s.script = .edge p :: rest) : s.cmdReady = false := by
  simp [State.cmdReady, pins_of_cons hs, Input.pins, cmdReadyOf, hp]

theorem accepts_of_rst {p : Pins} (s : State) (h : p.rst = true) : accepts p s = false := by
  simp [accepts, h]

/-- Settles O27: the reset arm of the clock edge, and a time with no edge. -/
theorem resetEdge : Obligations.ResetEdge :=
  ⟨fun _ _ _ hp hs => step_reset hp hs, fun _ _ _ hs => step_noEdge hs⟩

/-- Settles O28: two reset edges, the second from the reset values. -/
theorem resetHeld : Obligations.ResetHeld := by
  intro s p q rest hp hq hs
  have hsecond := step_reset (s := applyReset (s.setScript (.edge q :: rest))) hq rfl
  exact ⟨cmdReady_of_rst hp hs, accepts_of_rst s hp, _, _, step_reset hp hs, rfl, rfl, rfl, crc_of_idle rfl, rfl,
    cmdReady_of_rst hq rfl, rfl, hsecond, rfl⟩

/-- Settles O29: a reset edge leaves the block ready, and a ready block accepts. -/
theorem readyAfterReset : Obligations.ReadyAfterReset := by
  intro s p q rest hp hq hs
  have hready : (applyReset (s.setScript (.edge q :: rest))).cmdReady = true :=
    (outputPorts _).1.2 ⟨rfl, hq⟩
  refine ⟨_, step_reset hp hs, rfl, hready, fun hv => ?_⟩
  have haccepts : accepts q (applyReset (s.setScript (.edge q :: rest))) = true := (accepts_iff _ _).2 ⟨hq, hv, rfl⟩
  exact ⟨haccepts, step_edge_of_accepts rfl haccepts rfl⟩

end Sys2Proof.Machine
end

section
/-!
PROOFS. A message continued without an INIT (R109).
-/

namespace Sys2Proof.Machine

theorem absorb_left_injective (m : List Byte) : Function.Injective fun a => absorb a m := by
  induction m with
  | nil => exact Function.injective_id
  | cons d m ih => exact ih.comp (crcByte_left_injective d)

/-- A message's checksum goes on from that of its beginning. -/
theorem crc16_append (m n : List Byte) : crc16 (m ++ n) = absorb (crc16 m) n := by
  rw [crc16_eq_absorb, crc16_eq_absorb, absorb_append]

/-- Only a beginning that leaves `acc` at its initial value can be left out of a message (R109). -/
theorem crc16_append_ne {m : List Byte} (n : List Byte) (h : crc16 m ≠ crc16 []) : crc16 (m ++ n) ≠ crc16 n := by
  have hn : crc16 n = absorb (crc16 []) n := crc16_append [] n
  rw [crc16_append, hn]
  exact (absorb_left_injective n).ne h

/-- Settles O43: the bytes are absorbed from the previous checksum, and absorbing them is injective in it. -/
theorem missingInitContinues : Obligations.MissingInitContinues := by
  intro s before new rest h hprev hrest hs
  obtain ⟨t, hrun, ht⟩ := runSteps_offers h hrest hs
  rw [runCycles_byteWords] at hrun
  obtain ⟨hacc, herr, -⟩ := registers_of_arch (ht.arch.trans (foldl_transact_byteWords _ new))
  have hcrc : t.acc = crc16 (before ++ new) := by rw [hacc, crc16_append, ← hprev]; rfl
  exact ⟨t, hrun, ht.ready, ht.script, hcrc, herr, fun hne => hcrc ▸ crc16_append_ne new hne⟩

end Sys2Proof.Machine
end

section
/-!
PROOFS. The values that 95_test_vectors.md lists (sections 2.5, 2.6 and 3), and the state a run starts from (R9, R22).
-/

namespace Sys2Proof.Machine

/-- Settles O8: each entry is 8 steps from its index (R67). -/
theorem tableEntries : Obligations.TableEntries := ⟨rfl, rfl⟩

/-- V-M2, the published check value. -/
theorem crc16_digits : crc16 [0x31, 0x32, 0x33, 0x34, 0x35, 0x36, 0x37, 0x38, 0x39] = 0x4B37#16 := by decide +kernel

/-- V-M4. -/
theorem crc16_zero_byte : crc16 [0x00] = 0x40BF#16 := by decide +kernel

/-- V-M5, a second zero byte after the first. -/
theorem crc16_two_zero_bytes : crc16 [0x00, 0x00] = 0xB001#16 :=
  calc crc16 ([0x00] ++ [0x00])
    _ = absorb 0x40BF#16 [0x00] := by rw [crc16_append, crc16_zero_byte]
    _ = 0xB001#16 := by decide +kernel

/-- V-M7 and V-Z4: these are the empty message's check bytes. -/
theorem crc16_empty_frame : crc16 [0xFF, 0xFF] = 0x0000#16 := crc16_frameOf []

/-- V-M11. -/
theorem crc16_one_to_eight : crc16 [0x01, 0x02, 0x03, 0x04, 0x05, 0x06, 0x07, 0x08] = 0xCFB0#16 := by decide +kernel

/-- V-M13. -/
theorem crc16_read_ten_registers : crc16 [0x01, 0x03, 0x00, 0x00, 0x00, 0x0A] = 0xCDC5#16 := by decide +kernel

/-- V-Z3: after the request's payload its check bytes in the wrong order leave a residue. -/
theorem crc16_swapped_frame : crc16 (requestBytes ++ [0x1F, 0x64]) = 0xD362#16 :=
  calc crc16 (requestBytes ++ [0x1F, 0x64])
    _ = absorb 0x1F64#16 [0x1F, 0x64] := by rw [crc16_append, crc16_requestBytes]
    _ = 0xD362#16 := by decide +kernel

/-- Settles O16: each message by its vector, three of them from the frames and prefixes they are built of. -/
theorem messageVectors : Obligations.MessageVectors :=
  ⟨crc16_digits, crc16_zero_byte, crc16_two_zero_bytes, crc16_empty_frame, crc16_one_to_eight,
    crc16_read_ten_registers, crc16_swapped_frame⟩

/-- Settles O30: the registers and the model's fields as State.reset gives them; the two ports are those of an idle block
to which the host presents nothing. -/
theorem resetState : Obligations.ResetState :=
  ⟨rfl, rfl, rfl, rfl, rfl, rfl, rfl, rfl, crc_of_idle rfl, (outputPorts State.reset).1.2 ⟨rfl, rfl⟩⟩

end Sys2Proof.Machine
end
